-- ==== Sys2Proof/Word.lean ====
section
/-! DEFINITION. The block's words: bytes, single bits and clock values (00_scope.md R7 and R9). -/

namespace Sys2Proof

/-- One byte, the spec's `u8`. -/
abbrev Byte := BitVec 8

/-- A register or an operand of one bit. -/
abbrev Bit := BitVec 1

/-- `TIME_W`, the width of `now` and of the stored timestamps (R7; 92_eei_decisions.md D16). -/
abbrev timeW : Nat := 32

/-- A clock value: an operand of TICK, a stored timestamp or a timer interval. -/
abbrev Time := BitVec timeW

end Sys2Proof
end

