-- ==== Sys2Proof/Config.lean ====
section
/-! DEFINITION. The configuration of the block (00_scope.md R7), fixed before RESET and written by no operation
(10_state.md R44), and the one value the spec leaves unstated. -/

namespace Sys2Proof

/-- `TEMP_ENCODE_POLICY` (R7, 40_codec.md R135). -/
inductive TempPolicy where
  | clamp
  | truncByte
  deriving DecidableEq, Repr

/-- `LINE_FORMAT` (R7, 92_eei_decisions.md D31): no rule of the block reads it. -/
structure LineFormat where
  dataBits : Nat
  parityBit : Bool
  stopBits : Nat
  lsbFirst : Bool
  deriving DecidableEq, Repr

/-- The configuration of R7. `TIME_W` is the constant `timeW`; `N` and `ZID[k]` stand with the slots of the registry
(`State.slots`, 10_state.md R34), so that they are stored once. -/
structure Config where
  /-- `NZ_MAX`, OPEN: RR's width is computed from it (10_state.md R29). -/
  nzMax : Nat
  /-- `HDR0`, OPEN. -/
  hdr0 : Byte
  /-- `HDR1`, OPEN. -/
  hdr1 : Byte
  /-- `POLL_INTERVAL`, OPEN. -/
  pollInterval : Time
  /-- `RX_TIMEOUT`, OPEN. -/
  rxTimeout : Time
  /-- `WRITE_FLAG_MASK`, 0x02 by default. -/
  writeFlagMask : Byte
  /-- `RESP_REQID_OFFSET`, 2 by default. -/
  respReqidOffset : Nat
  /-- `TEMP_ENCODE_POLICY`, CLAMP by default. -/
  tempPolicy : TempPolicy
  /-- `DECODE_OVERWRITES_PENDING`, false by default. -/
  decodeOverwritesPending : Bool
  /-- `RX_MAX`, OPEN. -/
  rxMax : Nat
  /-- `DIR_ACTIVE_LEVEL`, 1. -/
  dirActiveLevel : Bit
  /-- `BAUD`, 4800: no rule of the block reads it. -/
  baud : Nat
  /-- `LINE_FORMAT`. -/
  lineFormat : LineFormat
  /-- `MIN_TEMP`, 16: the reset value of TARGET. -/
  minTemp : Byte
  /-- `MAX_TEMP`, OPEN, 34 or 36: not enforced by the block (92_eei_decisions.md D39). -/
  maxTemp : Byte
  deriving DecidableEq, Repr

/-- The parameters of the test instantiation T0 (95_test_vectors.md section 0); `NZ_MAX` and `MAX_TEMP`, which T0 does not
give, are 3 and 34.
DESIGN CHOICE (notes/assumptions/1.md), unsafe for a claim about this configuration alone: the configuration `State.reset`
starts from. Every statement is made for every configuration. -/
def Config.t0 : Config where
  nzMax := 3
  hdr0 := 0x00
  hdr1 := 0x00
  pollInterval := 100
  rxTimeout := 50
  writeFlagMask := 0x02
  respReqidOffset := 2
  tempPolicy := .clamp
  decodeOverwritesPending := false
  rxMax := 16
  dirActiveLevel := 1
  baud := 4800
  lineFormat := { dataBits := 8, parityBit := false, stopBits := 1, lsbFirst := true }
  minTemp := 16
  maxTemp := 34

/-- The zone ids of T0, slot 0 first. -/
def Config.t0Zids : List Int := [3, 5, -1]

/-- The request id that DECODE_RESPONSE returns when `RESP_REQID_OFFSET` lies past the end of the bytes it is given.
40_codec.md R124 reads `bytes[RESP_REQID_OFFSET]` and states no value there: a FREE VALUE of the offset and the bytes.
DESIGN CHOICE (notes/assumptions/2.md), safe: nothing constrains it. -/
opaque Config.unstatedRequestId (offset : Nat) (bytes : List Byte) : Byte

end Sys2Proof
end

