-- ==== Sys2Proof/Syntax.lean ====
section
/-! DEFINITION. The operations of the block: one constructor of `Instr` for each row of spec/opcode_table.json, the records
that carry them, and the names the codec uses. -/

namespace Sys2Proof

/-- The rows of spec/opcode_table.json, in its order. Operands have the widths of 30_encoding.md R101; a byte sequence
carries its own length `n`. -/
inductive Instr where
  /-- RESET, op 0x00 (70_reset_and_hazards.md R290). -/
  | reset
  /-- TICK, op 0x01 (41_controller.md R175). -/
  | tick (now : Time)
  /-- RX_BYTE, op 0x02 (41_controller.md R182). -/
  | rxByte (b : Byte)
  /-- SET_ZONE, op 0x03 (42_host_interface.md R221). -/
  | setZone (k : Byte) (vmode : BitVec 3) (fan : BitVec 2) (swing : Bit) (target : Byte)
  /-- SEED_ZONE, op 0x04 (42_host_interface.md R222). -/
  | seedZone (k : Byte) (vmode : BitVec 3) (fan : BitVec 2) (swing : Bit) (target : Byte)
  /-- GET_ZONE, op 0x05 (42_host_interface.md R223). -/
  | getZone (k : Byte)
  /-- CHECKSUM, op 0x10 (40_codec.md R121). -/
  | checksum (bytes : List Byte)
  /-- VERIFY_CHECKSUM, op 0x11 (40_codec.md R122). -/
  | verifyChecksum (bytes : List Byte)
  /-- ENCODE_REQUEST, op 0x12 (40_codec.md R123). -/
  | encodeRequest (zone reqId : Byte) (write power : Bit) (mode : BitVec 3) (swing : Bit) (fan : BitVec 2) (target : Byte)
  /-- DECODE_RESPONSE, op 0x13 (40_codec.md R124). -/
  | decodeResponse (bytes : List Byte)
  /-- ENC_MODE, op 0x14 (40_codec.md R127). -/
  | encMode (vmode prev : BitVec 3)
  /-- DEC_MODE, op 0x15 (40_codec.md R128). -/
  | decMode (power : Bit) (mode : BitVec 3)
  /-- ENC_FAN, op 0x16 (40_codec.md R129). -/
  | encFan (fan : BitVec 2)
  /-- DEC_FAN, op 0x17 (40_codec.md R130). -/
  | decFan (fanBits : BitVec 3)
  /-- ENC_SWING, op 0x18 (40_codec.md R131). -/
  | encSwing (swing : Bit)
  /-- DEC_SWING, op 0x19 (40_codec.md R132). -/
  | decSwing (swingBit : Bit)
  /-- PACK_STATUS, op 0x1A (40_codec.md R133). -/
  | packStatus (write power : Bit)
  /-- PACK_MSF, op 0x1B (40_codec.md R134). -/
  | packMsf (mode : BitVec 3) (swing : Bit) (fan : BitVec 2)
  /-- ENC_TARGET, op 0x1C (40_codec.md R135). -/
  | encTarget (target : Byte)
  /-- DEC_TARGET, op 0x1D (40_codec.md R136). -/
  | decTarget (tempByte : Byte)
  /-- DEC_CURTEMP, op 0x1E (40_codec.md R137). -/
  | decCurtemp (b : Byte)
  /-- CORRELATE, op 0x1F (41_controller.md R188). -/
  | correlate (respZone respId lastZone lastId : Byte)
  /-- REQUEST_CHANGE, another spelling of SET_ZONE with the same record (30_encoding.md R106). -/
  | requestChange (k : Byte) (vmode : BitVec 3) (fan : BitVec 2) (swing : Bit) (target : Byte)
  /-- DRIVE, the pseudo-operation with no op code (30_encoding.md R105): the bytes the transport holds, then a tick. -/
  | drive (now : Time) (bytes : List Byte)
  /-- FRAME_REQ, the request frame of 30_encoding.md R81 by its free fields: `i`, `z`, `w`, `p`, `f`, `s`, `m` and the
  temperature byte. -/
  | frameReq (reqId zone : Byte) (write power : Bit) (fan : BitVec 2) (swing : Bit) (mode : BitVec 3) (temp : Byte)
  /-- FRAME_RESP, the response frame of 30_encoding.md R86 by its bytes, offset 0 first. -/
  | frameResp (bytes : List Byte)
  deriving DecidableEq, Repr

/-- The formats of spec/opcode_table.json: an operation record (30_encoding.md R100), the pseudo-operation's operands, and
the two wire frames (R80). -/
inductive Format where
  | op
  | pseudo
  | req
  | resp
  deriving DecidableEq, Repr

/-- One presented operation: its format and its bytes, offset 0 first. -/
structure Record where
  fmt : Format
  bytes : List Byte
  deriving DecidableEq, Repr

/-- Why bytes are no record of their format (30_encoding.md R99 and R102). -/
inductive DecodeError where
  /-- An op code outside the map of R101. -/
  | unknownOpcode
  /-- Fewer bytes than the record's operands need. -/
  | missingBytes
  /-- Bytes left over after the record's last operand. -/
  | trailingBytes
  /-- An operand that does not fit its width (R102). -/
  | operandTooWide
  /-- Header bytes of a request frame that are not `HDR0`, `HDR1` (R81). -/
  | badHeader
  /-- A bit of a request frame that R82 to R84 transmit as 0. -/
  | reservedBits
  /-- A request frame whose last byte is not its checksum (R85). -/
  | badChecksum
  /-- A response frame that does not start with 0x10 (R86). -/
  | noStartByte
  deriving DecidableEq, Repr

/-- The detail of `InvalidModeOrFanOrSwingValue` (60_exceptions.md R250). -/
inductive FieldName where
  | mode
  | fan
  | swing
  deriving DecidableEq, Repr

/-- The six error kinds (60_exceptions.md R250). -/
inductive ErrorKind where
  | checksumMismatch
  | frameTooShort
  | uncorrelatedResponse
  | receiveTimeout
  | unknownZone
  | invalidModeOrFanOrSwingValue (field : FieldName)
  deriving DecidableEq, Repr

/-- The raw fields DECODE_RESPONSE returns (40_codec.md R124). -/
structure ResponseFields where
  zoneId : Byte
  requestId : Byte
  power : Bit
  modeBits : BitVec 3
  swingBit : Bit
  fanBits : BitVec 3
  targetRaw : BitVec 4
  curRaw : Byte
  deriving DecidableEq, Repr

end Sys2Proof
end

