-- ==== Sys2Proof/Machine/Operands.lean ====
section
/-! DEFINITION. The block's constants (00_scope.md R7), the width of RR (10_state.md R29), the operand codes of the host and
of the wire (30_encoding.md R92 to R95), the operand ranges (R102) and the packing of an operand into bytes (R104). -/

namespace Sys2Proof.Machine

/-- `START`, the first byte of a response frame. -/
def startByte : Byte := 0x10

/-- `CS_XOR`. -/
def csXor : Byte := 0x55

/-- `RESP_LEN`, also the size of the receive buffer. -/
def respLen : Nat := 16

/-- `MIN_DECODE_LEN`. -/
def minDecodeLen : Nat := 9

/-- `TEMP_OFFSET`. -/
def tempOffset : Nat := 15

/-- `ceil(log2(n))` for `n >= 1`. -/
def ceilLog2 (n : Nat) : Nat := if n ≤ 1 then 0 else Nat.log2 (n - 1) + 1

/-- The width of RR: `ceil(log2(NZ_MAX))` bits, at least 1 (10_state.md R29, R48). -/
def rrWidth (c : Config) : Nat := max (ceilLog2 c.nzMax) 1

/-- A value as the bits of RR hold it (R29). -/
def holdRr (c : Config) (v : Nat) : Nat := v % 2 ^ rrWidth c

/-- The host's vmode code of Off (R95); codes 0 to 4 are the wire modes (R92). -/
def vmodeOff : BitVec 3 := 5

/-- The host's fan code of Auto (R95). -/
def fanAuto : BitVec 2 := 3

/-- The host's fan code, and the wire code, of Low (R93). -/
def fanLow : BitVec 2 := 0

/-- A host vmode code has a meaning: 6 and 7 are refused (R95, R99). -/
def vmodeOk (vmode : BitVec 3) : Bool := vmode.toNat ≤ 5

/-- A mode is in the table of R92. -/
def modeOk (mode : BitVec 3) : Bool := mode.toNat ≤ 4

/-- A fan is in the table of R93. -/
def fanOk (fan : BitVec 2) : Bool := fan.toNat ≤ 2

/-- The operand `n` of CHECKSUM and VERIFY_CHECKSUM is in 1..16 (R102, 40_codec.md R121 and R122). -/
def checksumCountOk (bytes : List Byte) : Bool := 1 ≤ bytes.length && bytes.length ≤ respLen

/-- The operand `n` of DECODE_RESPONSE is in 0..16 (R102, 40_codec.md R124). -/
def responseCountOk (bytes : List Byte) : Bool := bytes.length ≤ respLen

/-- The temperature byte of a request frame has the bits its policy transmits: bits 7:4 are 0 under CLAMP (R84). -/
def tempByteOk (c : Config) (temp : Byte) : Bool :=
  match c.tempPolicy with
  | .clamp => temp.toNat ≤ 15
  | .truncByte => true

/-- Sixteen bytes that start with 0x10 are a response frame (R86); its checksum is judged when it is received. -/
def respFrameOk (bytes : List Byte) : Bool := bytes.length == respLen && bytes.head? == some startByte

/-- `zext_8`: an operand of at most 8 bits in the one byte that holds it (R104). -/
def zext8 {w : Nat} (v : BitVec w) : Byte := v.setWidth 8

/-- The operand of `w` bits that a record's byte holds: a byte that does not fit is refused (R102). -/
def fit (w : Nat) (b : Byte) : Except DecodeError (BitVec w) :=
  if b.toNat < 2 ^ w then .ok (b.setWidth w) else .error .operandTooWide

/-- The four bytes of a clock value, least significant first (R104). -/
def timeBytes (t : Time) : List Byte :=
  [t.extractLsb' 0 8, t.extractLsb' 8 8, t.extractLsb' 16 8, t.extractLsb' 24 8]

/-- The clock value of four bytes, least significant first (R104). -/
def timeOfBytes (b0 b1 b2 b3 : Byte) : Time := b3 ++ b2 ++ b1 ++ b0

end Sys2Proof.Machine
end

