-- ==== Sys2Proof/Machine/Codec.lean ====
section
/-! DEFINITION. FrameCodec and ZoneStateCodec (40_codec.md): total functions of their operands and the configuration,
which the controller, the host operations and the combinational operations share. -/

namespace Sys2Proof.Machine

/-- CHECKSUM (R121): the last byte is the checksum slot and is not summed. -/
def checksum (bytes : List Byte) : Byte := bytes.dropLast.foldl (· + ·) 0 ^^^ csXor

/-- VERIFY_CHECKSUM (R122). -/
def verifyChecksum (bytes : List Byte) : Bool := bytes.getLast? == some (checksum bytes)

/-- PACK_STATUS (R133, 30_encoding.md R82 and R98). -/
def packStatus (c : Config) (write power : Bit) : Byte :=
  zext8 power ||| (if write = 1 then c.writeFlagMask else 0)

/-- PACK_MSF (R134, 30_encoding.md R83 and R98). -/
def packMsf (mode : BitVec 3) (swing : Bit) (fan : BitVec 2) : Byte :=
  zext8 mode ||| (zext8 swing <<< 3) ||| (zext8 fan <<< 4)

/-- ENC_TARGET (R135): the subtraction is done on integers, before narrowing. -/
def encTarget (c : Config) (target : Byte) : Byte :=
  let d : Int := (target.toNat : Int) - tempOffset
  match c.tempPolicy with
  | .clamp => BitVec.ofInt 8 (min (max d 0) 15)
  | .truncByte => BitVec.ofInt 8 d

/-- DEC_TARGET (R136). -/
def decTarget (tempByte : Byte) : Byte := BitVec.ofNat 8 ((tempByte.extractLsb' 0 4).toNat + tempOffset)

/-- DEC_CURTEMP (R137): `70 - b*100/256` rounded half away from zero, as an s8. -/
def decCurtemp (b : Byte) : Byte :=
  let n : Int := 4480 - 25 * (b.toNat : Int)
  if 0 ≤ n then BitVec.ofInt 8 ((n + 32) / 64) else BitVec.ofInt 8 (-((-n + 32) / 64))

/-- The eight bytes of a request frame (30_encoding.md R81), from its free fields. -/
def requestFrame (c : Config) (zone reqId : Byte) (write power : Bit) (mode : BitVec 3) (swing : Bit) (fan : BitVec 2)
    (temp : Byte) : List Byte :=
  let body := [c.hdr0, c.hdr1, reqId, zone, packStatus c write power, packMsf mode swing fan, temp]
  body ++ [checksum (body ++ [0])]

/-- ENCODE_REQUEST (R123). -/
def encodeRequest (c : Config) (zone reqId : Byte) (write power : Bit) (mode : BitVec 3) (swing : Bit) (fan : BitVec 2)
    (target : Byte) : List Byte :=
  requestFrame c zone reqId write power mode swing fan (encTarget c target)

/-- The echoed request id of a response (R124): at `RESP_REQID_OFFSET`, and a free value where that offset holds no byte. -/
def responseId (c : Config) (bytes : List Byte) : Byte :=
  (bytes[c.respReqidOffset]?).getD (Config.unstatedRequestId c.respReqidOffset bytes)

/-- DECODE_RESPONSE (R124): no field is read from fewer than 9 bytes. -/
def decodeResponse (c : Config) (bytes : List Byte) : Except ErrorKind ResponseFields :=
  if bytes.length < minDecodeLen then .error .frameTooShort
  else .ok
    { zoneId := bytes.getD 4 0
      requestId := responseId c bytes
      power := (bytes.getD 1 0).extractLsb' 0 1
      modeBits := (bytes.getD 6 0).extractLsb' 0 3
      swingBit := (bytes.getD 6 0).extractLsb' 3 1
      fanBits := (bytes.getD 6 0).extractLsb' 4 3
      targetRaw := (bytes.getD 7 0).extractLsb' 0 4
      curRaw := bytes.getD 8 0 }

/-- ENC_MODE (R127): the power bit and the mode bits; `none` where the vmode code is refused. -/
def encMode (vmode prev : BitVec 3) : Option (Bit × BitVec 3) :=
  if vmode = vmodeOff then some (0, prev) else if modeOk vmode then some (1, vmode) else none

/-- DEC_MODE (R128): the visible mode and the error. -/
def decMode (power : Bit) (mode : BitVec 3) : BitVec 3 × Option ErrorKind :=
  if power = 0 then (vmodeOff, none)
  else if modeOk mode then (mode, none)
  else (vmodeOff, some (.invalidModeOrFanOrSwingValue .mode))

/-- ENC_FAN (R129). -/
def encFan (fan : BitVec 2) : BitVec 2 := if fan = fanAuto then fanLow else fan

/-- DEC_FAN (R130): the fan, or `none` for `unchanged`, and the error. -/
def decFan (fanBits : BitVec 3) : Option (BitVec 2) × Option ErrorKind :=
  if fanBits.toNat ≤ 2 then (some (fanBits.setWidth 2), none)
  else (none, some (.invalidModeOrFanOrSwingValue .fan))

/-- ENC_SWING (R131). -/
def encSwing (swing : Bit) : Bit := swing

/-- DEC_SWING (R132). -/
def decSwing (swingBit : Bit) : Bit := swingBit

/-- CORRELATE (41_controller.md R188). -/
def correlate (respZone respId lastZone lastId : Byte) : Bool :=
  respZone == lastZone && (respId == lastId || respId == lastId - 1)

end Sys2Proof.Machine
end

