-- ==== Sys2Proof/Machine/State.lean ====
section
/-! DEFINITION. The state of the block as plain data (10_state.md), the reasons a step can stop, and the state after
reset. -/

namespace Sys2Proof.Machine

/-- `ST` (R23). The spec's code 3 is never written (R46): it has no constructor. -/
inductive CtrlState where
  | idle
  | awaitResponse
  | receiving
  deriving DecidableEq, Repr

/-- One slot of the zone registry (R34): its read-only `ZID[k]` and the registers of R35 to R42. -/
structure Slot where
  /-- `ZID[k]`, part of the configuration: no operation writes it (R44). -/
  zid : Int
  /-- `POWER[k]` (R35). -/
  power : Bit
  /-- `MODE[k]` (R36), the stored operating mode. -/
  mode : BitVec 3
  /-- `FAN[k]` (R37). -/
  fan : BitVec 2
  /-- `SWING[k]` (R38). -/
  swing : Bit
  /-- `TARGET[k]` (R39). -/
  target : Byte
  /-- `CUR[k]` (R41), an s8 in two's complement. -/
  cur : Byte
  /-- `CUR_VALID[k]` (R41). -/
  curValid : Bool
  /-- `PEND[k]` (R42). -/
  pend : Bool
  deriving DecidableEq, Repr

/-- The events of the output trace (R40). -/
inductive Event where
  | dirAssert
  | dirDeassert
  | txByte (b : Byte)
  | flush
  | err (code detail : Nat)
  | publish (k : Nat)
  | getResult (k : Nat) (vmode : BitVec 3) (fan : BitVec 2) (swing : Bit) (target : Byte) (cur : Option Byte) (pend : Bool)
  deriving DecidableEq, Repr

/-- What a combinational operation returns (40_codec.md, 41_controller.md R188). -/
inductive Result where
  | checksum (b : Byte)
  | verified (ok : Bool)
  | request (bytes : List Byte)
  | fields (f : ResponseFields)
  | error (e : ErrorKind)
  | encMode (power : Bit) (mode : BitVec 3)
  | decMode (vmode : BitVec 3) (err : Option ErrorKind)
  | encFan (fan : BitVec 2)
  /-- `fan` is `none` for the spec's `unchanged`. -/
  | decFan (fan : Option (BitVec 2)) (err : Option ErrorKind)
  | encSwing (swing : Bit)
  | decSwing (swing : Bit)
  | status (b : Byte)
  | msf (b : Byte)
  | tempByte (b : Byte)
  | target (t : Byte)
  /-- An s8 in two's complement. -/
  | curTemp (t : Byte)
  | correlated (ok : Bool)
  deriving DecidableEq, Repr

/-- The receive buffer `RXBUF[0..15]`, the block's only memory (20_memory.md R60): offsets strictly rising, no entry equal
to what an unlisted offset reads as (`Machine.Memory.wf`). -/
abbrev Memory := List Host.Cell

/-- The state of the block. -/
structure State where
  /-- The configuration (R44), but for `N` and `ZID[k]`, which stand in `slots`. -/
  cfg : Config
  /-- `ST` (R23). -/
  st : CtrlState
  /-- `RXBUF` (R24). -/
  rxbuf : Memory
  /-- `RXCNT` (R25). -/
  rxcnt : BitVec 5
  /-- `SEQ` (R26). -/
  seq : Byte
  /-- `LAST_ID` (R27). -/
  lastId : Byte
  /-- `LAST_ZONE` (R28). -/
  lastZone : Byte
  /-- `RR` (R29): the unsigned number its `rrWidth` bits hold, written through `holdRr` (notes/assumptions/13.md). -/
  rr : Nat
  /-- `POLL_TS` (R30). -/
  pollTs : Time
  /-- `TX_TS` (R31). -/
  txTs : Time
  /-- `DIR` (R32): true is 1, asserted. -/
  dir : Bool
  /-- `RUN` (R33). -/
  run : Bool
  /-- The zone registry (R34), in registration order; `N` is its length. -/
  slots : List Slot
  /-- The output trace (R40), oldest event first. -/
  trace : List Event
  /-- MODEL'S OWN (notes/assumptions/3.md): the operations presented and not yet performed, the next one first (R70). -/
  input : List Record
  /-- MODEL'S OWN (notes/assumptions/4.md): the value the most recent combinational operation returned. -/
  result : Option Result
  /-- MODEL'S OWN (notes/assumptions/6.md): the bytes the most recent DRIVE left in the transport (30_encoding.md R105). -/
  held : List Byte
  deriving DecidableEq, Repr

/-- Why the machine stops with a fault. -/
inductive Fault where
  /-- Raised by a buffer access at an offset outside 0..15, which R60 says no rule forms: APPEND in a state with RXCNT above
  15, which no run reaches. Safe: the machine stops where the spec has no behaviour. -/
  | bufferOffset (offset : Nat)
  deriving DecidableEq, Repr

/-- Why an operation has no meaning: the refusals of 60_exceptions.md R254. -/
inductive Refusal where
  /-- Raised by an arm of `exec` whose instruction has no meaning yet. Safe: nothing is claimed of it. -/
  | notModelled (mnemonic : String)
  /-- Raised by `step` and by RESET under a configuration that 00_scope.md R8 refuses. Safe: the spec gives it no model. -/
  | configuration
  /-- Raised by `step` at a record that decodes to no operation (30_encoding.md R99 and R102). Safe. -/
  | badRecord (e : DecodeError)
  /-- Raised by SET_ZONE, SEED_ZONE and GET_ZONE at `k >= N` (R102). Safe. -/
  | slotOutOfRange
  /-- Raised by SET_ZONE, SEED_ZONE and ENC_MODE at the vmode codes 6 and 7 (R95, R99). Safe. -/
  | hostVmode
  /-- Raised by SEED_ZONE after the first TICK (42_host_interface.md R222). Safe. -/
  | seedAfterTick
  /-- Raised by CHECKSUM and VERIFY_CHECKSUM at a count outside 1..16, by DECODE_RESPONSE at a count above 16 (R102), and by
  FRAME_RESP at bytes that are not a 16-byte frame from 0x10 on (R86). Safe. -/
  | byteCount
  /-- Raised by ENCODE_REQUEST, PACK_MSF, ENC_MODE and FRAME_REQ at an operand outside the range of its rule (mode above 4,
  fan above 2, a temperature byte above 15 under CLAMP). Safe. -/
  | operandRange
  deriving DecidableEq, Repr

/-- What a step of this machine answers. -/
abbrev Answer := Host.Outcome State Fault Refusal

/-- A slot right after RESET (70_reset_and_hazards.md R290). -/
def Slot.reset (minTemp : Byte) (zid : Int) : Slot where
  zid := zid
  power := 0
  mode := 0
  fan := 0
  swing := 0
  target := minTemp
  cur := 0
  curValid := false
  pend := false

/-- The block right after RESET under a configuration and its zone ids (R290, 10_state.md R48), with nothing emitted and
nothing presented. `RR` is N - 1, and 0 when N = 0 (R29). -/
def State.resetOf (c : Config) (zids : List Int) : State where
  cfg := c
  st := .idle
  rxbuf := []
  rxcnt := 0
  seq := 0
  lastId := 0
  lastZone := 0
  rr := holdRr c (zids.length - 1)
  pollTs := 0
  txTs := 0
  dir := false
  run := false
  slots := zids.map (Slot.reset c.minTemp)
  trace := []
  input := []
  result := none
  held := []

/-- The machine right after reset, in the spec's test instantiation T0 (95_test_vectors.md section 0;
notes/assumptions/1.md). -/
def State.reset : State := State.resetOf Config.t0 Config.t0Zids

end Sys2Proof.Machine
end

