-- ==== Sys2Proof/Machine/Ops.lean ====
section
/-! DEFINITION. The named operations over the receive buffer, the slots, the output trace and the direction pin; raising an
error with its recovery; and the test of a refused configuration. -/

namespace Sys2Proof.Machine

/-! ### The receive buffer (20_memory.md R60) -/

/-- What an offset with no entry reads as: the reset contents of RXBUF (10_state.md R24). -/
def bufDefault : Byte := 0x00

/-- The offset is one of the buffer's. -/
def bufOffsetOk (offset : Nat) : Bool := offset < respLen

/-- The byte at an offset, in canonical or any other form. -/
def bufGet : Memory → Nat → Byte
  | [], _ => bufDefault
  | (a, b) :: m, offset => if a = offset then b else bufGet m offset

/-- The buffer with one byte replaced; it keeps the canonical form. -/
def bufPut : Memory → Nat → Byte → Memory
  | [], offset, v => if v = bufDefault then [] else [(offset, v)]
  | (a, b) :: m, offset, v =>
    if offset < a then (if v = bufDefault then (a, b) :: m else (offset, v) :: (a, b) :: m)
    else if offset = a then (if v = bufDefault then m else (offset, v) :: m)
    else (a, b) :: bufPut m offset v

/-- `MemRead(offset, 1)`; an offset the spec says does not exist faults. -/
def memRead (offset : Nat) (m : Memory) : Except Fault Byte :=
  if bufOffsetOk offset then .ok (bufGet m offset) else .error (.bufferOffset offset)

/-- `MemWrite(offset, 1, v)`; an offset the spec says does not exist faults. -/
def memWrite (offset : Nat) (v : Byte) (m : Memory) : Except Fault Memory :=
  if bufOffsetOk offset then .ok (bufPut m offset v) else .error (.bufferOffset offset)

/-- Entries above a bound, in strictly rising order, inside the buffer, none of them the default byte. -/
def bufSorted : Nat → Memory → Bool
  | _, [] => true
  | bound, (a, b) :: m => bound ≤ a && a < respLen && b != bufDefault && bufSorted (a + 1) m

/-- The canonical form of the buffer. -/
def Memory.wf (m : Memory) : Bool := bufSorted 0 m

/-- The sixteen bytes of the buffer, offset 0 first. -/
def bufBytes (m : Memory) : List Byte := (List.range respLen).map (bufGet m)

/-! ### The output trace and the direction pin (10_state.md R40, R32) -/

/-- `emit E` (00_scope.md R10). -/
def emit (e : Event) (s : State) : State := { s with trace := s.trace ++ [e] }

/-- `DIR <- 1; emit DIR_ASSERT`. -/
def assertDir (s : State) : State := emit .dirAssert { s with dir := true }

/-- `DIR <- 0; emit DIR_DEASSERT`. -/
def deassertDir (s : State) : State := emit .dirDeassert { s with dir := false }

/-- `emit TX_BYTE(f[i])` for every byte, offset 0 first. -/
def txBytes (f : List Byte) (s : State) : State := f.foldl (fun t b => emit (.txByte b) t) s

/-- TRANSMIT (41_controller.md R173): assert, write, flush, deassert. -/
def transmit (f : List Byte) (s : State) : State := deassertDir (emit .flush (txBytes f (assertDir s)))

/-- The level of the direction pin (R32, `DIR_ACTIVE_LEVEL`). -/
def dirPin (s : State) : Bit := if s.dir then s.cfg.dirActiveLevel else ~~~ s.cfg.dirActiveLevel

/-! ### Ending a frame cycle and raising an error (41_controller.md R193, 60_exceptions.md R251 and R262) -/

/-- RXBUF all 0x00 and RXCNT 0. -/
def clearBuffer (s : State) : State := { s with rxbuf := [], rxcnt := 0 }

/-- END_CYCLE (R193). -/
def endCycle (s : State) : State := { clearBuffer s with st := .idle }

/-- The numeric code of an error kind (R250). -/
def errorCode : ErrorKind → Nat
  | .checksumMismatch => 1
  | .frameTooShort => 2
  | .uncorrelatedResponse => 3
  | .receiveTimeout => 4
  | .unknownZone => 5
  | .invalidModeOrFanOrSwingValue _ => 6

/-- The detail of an error kind (R250). -/
def errorDetail : ErrorKind → Nat
  | .invalidModeOrFanOrSwingValue .mode => 0
  | .invalidModeOrFanOrSwingValue .fan => 1
  | .invalidModeOrFanOrSwingValue .swing => 2
  | _ => 0

/-- `emit ERR(code(K), detail)`. -/
def emitError (e : ErrorKind) (s : State) : State := emit (.err (errorCode e) (errorDetail e)) s

/-- `raise K` (R251): the error event, then K's recovery (R262). Codes 1, 3, 4 and 5 end the cycle. The recovery of code 6
is the slot write of DECODE_INTO_SLOT (R191), which its caller makes. Code 2 is a function result only: it has no event and no
recovery. -/
def raise (e : ErrorKind) (s : State) : State :=
  match e with
  | .frameTooShort => s
  | .invalidModeOrFanOrSwingValue _ => emitError e s
  | .checksumMismatch => endCycle (emitError e s)
  | .uncorrelatedResponse => endCycle (emitError e s)
  | .receiveTimeout => endCycle (emitError e s)
  | .unknownZone => endCycle (emitError e s)

/-- `raise` for the error a decoding function returned, if it returned one. -/
def raiseIf (e : Option ErrorKind) (s : State) : State :=
  match e with
  | none => s
  | some e => raise e s

/-! ### The zone registry (10_state.md R34) -/

/-- The zone id is valid: the slot is active (00_scope.md R8, 92_eei_decisions.md D26). -/
def zidActive (zid : Int) : Bool := 0 ≤ zid && zid ≤ 255

/-- A slot is active (R34). -/
def slotActive (sl : Slot) : Bool := zidActive sl.zid

/-- The wire zone id of an active slot (R34). -/
def slotZone (sl : Slot) : Byte := BitVec.ofInt 8 sl.zid

/-- The visible mode of a slot (R43). -/
def slotVmode (sl : Slot) : BitVec 3 := if sl.power = 0 then vmodeOff else sl.mode

/-- The registers of a slot that a host can see a decode change (41_controller.md R192). -/
def slotObservable (sl : Slot) : BitVec 3 × BitVec 2 × Bit × Byte × Bool × Byte :=
  (slotVmode sl, sl.fan, sl.swing, sl.target, sl.curValid, sl.cur)

/-- The registers of slot k replaced. -/
def setSlot (k : Nat) (sl : Slot) (s : State) : State := { s with slots := s.slots.set k sl }

/-- The least slot index that is pending and active (41_controller.md R177). -/
def firstPending (slots : List Slot) : Option Nat := slots.findIdx? fun sl => sl.pend && slotActive sl

/-- SLOT_OF (41_controller.md R190). -/
def slotOf (slots : List Slot) (zone : Byte) : Option Nat :=
  slots.findIdx? fun sl => slotActive sl && slotZone sl == zone

/-- The zone ids of a configuration that R8 refuses: an id above 255, or two active slots with one id. -/
def zidsRefused : List Int → Bool
  | [] => false
  | z :: zs => z > 255 || (zidActive z && zs.contains z) || zidsRefused zs

/-- The configuration of the state is refused (00_scope.md R8). -/
def configRefused (s : State) : Bool := zidsRefused (s.slots.map (·.zid))

/-! ### Sequencing -/

/-- One operation after another: a stop of the first is the stop of both. -/
def andThen (o : Answer) (f : State → Answer) : Answer :=
  match o with
  | .next s => f s
  | .fault r => .fault r
  | .refused r => .refused r

/-- The meaning of an operation of the host on slot k, refused at `k >= N` (30_encoding.md R102). -/
def withSlot (k : Byte) (s : State) (f : Slot → Answer) : Answer :=
  match s.slots[k.toNat]? with
  | none => .refused .slotOutOfRange
  | some sl => f sl

end Sys2Proof.Machine
end

