-- ==== Sys2Proof/Machine/Flags.lean ====
section
/-! DEFINITION. The block's flags (10_state.md R47: PEND, CUR_VALID and RUN; DIR stands with the direction pin in Ops) and
the elapsed-time test of the two timers (41_controller.md R172). -/

namespace Sys2Proof.Machine

/-- `elapsed(ts, interval)` at a tick's `now` (R172): unsigned, modulo 2^TIME_W. -/
def elapsed (now ts interval : Time) : Bool := interval.toNat ≤ (now - ts).toNat

/-- `PEND <- v` (R42). -/
def setPend (v : Bool) (sl : Slot) : Slot := { sl with pend := v }

/-- `CUR <- t; CUR_VALID <- 1` (R41). -/
def setCur (t : Byte) (sl : Slot) : Slot := { sl with cur := t, curValid := true }

/-- `RUN <- 1` (R33). -/
def setRun (s : State) : State := { s with run := true }

/-- What GET_ZONE reports as the current temperature: `none` for the spec's `unknown` (R41). -/
def reportedCur (sl : Slot) : Option Byte := if sl.curValid then some sl.cur else none

/-- A response may write the commanded fields of the slot (41_controller.md R194). -/
def mayOverwrite (c : Config) (sl : Slot) : Bool := !sl.pend || c.decodeOverwritesPending

end Sys2Proof.Machine
end

