-- ==== Sys2Proof/Machine/CodecOps.lean ====
section
/-! DEFINITION. The combinational operations (30_encoding.md R101, op codes 0x10 to 0x1F): each returns a value of its
operands and the configuration, writes no register and emits no event (40_codec.md, R120). -/

namespace Sys2Proof.Machine

/-- The operation returns a value to its caller, and nothing else changes. -/
def returns (r : Result) (s : State) : Answer := .next { s with result := some r }

/-- CHECKSUM (R121, R102). -/
def execChecksum (bytes : List Byte) (s : State) : Answer :=
  if checksumCountOk bytes then returns (.checksum (checksum bytes)) s else .refused .byteCount

/-- VERIFY_CHECKSUM (R122, R102). Refused above 16 bytes: DEDUCED (notes/assumptions/11.md), safe. -/
def execVerifyChecksum (bytes : List Byte) (s : State) : Answer :=
  if checksumCountOk bytes then returns (.verified (verifyChecksum bytes)) s else .refused .byteCount

/-- ENCODE_REQUEST (R123). -/
def execEncodeRequest (zone reqId : Byte) (write power : Bit) (mode : BitVec 3) (swing : Bit) (fan : BitVec 2)
    (target : Byte) (s : State) : Answer :=
  if modeOk mode && fanOk fan then
    returns (.request (encodeRequest s.cfg zone reqId write power mode swing fan target)) s
  else .refused .operandRange

/-- DECODE_RESPONSE (R124, R102): FrameTooShort is a result (R125). -/
def execDecodeResponse (bytes : List Byte) (s : State) : Answer :=
  if responseCountOk bytes then
    match decodeResponse s.cfg bytes with
    | .ok f => returns (.fields f) s
    | .error e => returns (.error e) s
  else .refused .byteCount

/-- ENC_MODE (R127). Refused at a previous mode above 4: DEDUCED (notes/assumptions/11.md), safe. -/
def execEncMode (vmode prev : BitVec 3) (s : State) : Answer :=
  match encMode vmode prev with
  | none => .refused .hostVmode
  | some (p, m) => if modeOk prev then returns (.encMode p m) s else .refused .operandRange

/-- DEC_MODE (R128). -/
def execDecMode (power : Bit) (mode : BitVec 3) (s : State) : Answer :=
  returns (.decMode (decMode power mode).1 (decMode power mode).2) s

/-- ENC_FAN (R129). -/
def execEncFan (fan : BitVec 2) (s : State) : Answer := returns (.encFan (encFan fan)) s

/-- DEC_FAN (R130). -/
def execDecFan (fanBits : BitVec 3) (s : State) : Answer := returns (.decFan (decFan fanBits).1 (decFan fanBits).2) s

/-- ENC_SWING (R131). -/
def execEncSwing (swing : Bit) (s : State) : Answer := returns (.encSwing (encSwing swing)) s

/-- DEC_SWING (R132). -/
def execDecSwing (swingBit : Bit) (s : State) : Answer := returns (.decSwing (decSwing swingBit)) s

/-- PACK_STATUS (R133). -/
def execPackStatus (write power : Bit) (s : State) : Answer := returns (.status (packStatus s.cfg write power)) s

/-- PACK_MSF (R134). Refused outside its operand ranges: DEDUCED (notes/assumptions/11.md), safe. -/
def execPackMsf (mode : BitVec 3) (swing : Bit) (fan : BitVec 2) (s : State) : Answer :=
  if modeOk mode && fanOk fan then returns (.msf (packMsf mode swing fan)) s else .refused .operandRange

/-- ENC_TARGET (R135). -/
def execEncTarget (target : Byte) (s : State) : Answer := returns (.tempByte (encTarget s.cfg target)) s

/-- DEC_TARGET (R136). -/
def execDecTarget (tempByte : Byte) (s : State) : Answer := returns (.target (decTarget tempByte)) s

/-- DEC_CURTEMP (R137). -/
def execDecCurtemp (b : Byte) (s : State) : Answer := returns (.curTemp (decCurtemp b)) s

/-- CORRELATE (41_controller.md R188). -/
def execCorrelate (respZone respId lastZone lastId : Byte) (s : State) : Answer :=
  returns (.correlated (correlate respZone respId lastZone lastId)) s

end Sys2Proof.Machine
end

