-- ==== Sys2Proof/Machine/Controller.lean ====
section
/-! DEFINITION. The bus controller (41_controller.md): TICK, RX_BYTE, CORRELATE and DRIVE, with the procedures they share. -/

namespace Sys2Proof.Machine

/-! ### TICK (R175) -/

/-- SEND (R174) for slot `sl`: build, transmit and arm a request. -/
def send (sl : Slot) (write : Bit) (now : Time) (s : State) : State :=
  let f := encodeRequest s.cfg (slotZone sl) s.seq write sl.power sl.mode sl.swing sl.fan sl.target
  let t := transmit f s
  { clearBuffer t with
    lastId := s.seq
    lastZone := slotZone sl
    seq := s.seq + 1
    txTs := now
    st := .awaitResponse }

/-- WRITE_STEP (R177) for the pending slot k. -/
def writeStep (k : Nat) (sl : Slot) (now : Time) (s : State) : State :=
  setSlot k (setPend false sl) (send sl 1 now s)

/-- The slot index of the next round-robin step (R179, 10_state.md R29). -/
def nextRr (s : State) : Nat := holdRr s.cfg ((s.rr + 1) % s.slots.length)

/-- POLL_STEP (R179), which lands on slot `sl`. -/
def pollStep (sl : Slot) (now : Time) (s : State) : State :=
  let t := { s with rr := nextRr s, pollTs := now }
  if slotActive sl then send sl 0 now t else t

/-- The slot a round-robin step may go to now: none without slots, and none before the poll interval has elapsed (R176). -/
def pollTarget (now : Time) (s : State) : Option Slot :=
  if elapsed now s.pollTs s.cfg.pollInterval then s.slots[nextRr s]? else none

/-- The slot a write step goes to now (R177). -/
def writeTarget (s : State) : Option (Nat × Slot) :=
  match firstPending s.slots with
  | none => none
  | some k => (s.slots[k]?).map fun sl => (k, sl)

/-- IDLE_TICK (R176): a pending write, else a poll, else nothing (R180). -/
def idleTick (now : Time) (s : State) : State :=
  match writeTarget s with
  | some (k, sl) => writeStep k sl now s
  | none =>
    match pollTarget now s with
    | some sl => pollStep sl now s
    | none => s

/-- TIMEOUT_CHECK (R181). -/
def timeoutCheck (now : Time) (s : State) : State :=
  if elapsed now s.txTs s.cfg.rxTimeout then raise .receiveTimeout s else s

/-- TICK as a state transformation: one branch, chosen by ST as it stands at the tick's start. -/
def tick (now : Time) (s : State) : State :=
  match s.st with
  | .idle => idleTick now (setRun s)
  | .awaitResponse => timeoutCheck now (setRun s)
  | .receiving => timeoutCheck now (setRun s)

/-- TICK (R175). -/
def execTick (now : Time) (s : State) : Answer := .next (tick now s)

/-! ### RX_BYTE (R182) -/

/-- The commanded fields of a slot after a response that may write them (R191). -/
def decodeCommanded (f : ResponseFields) (b7 : Byte) (sl : Slot) : Slot :=
  let off := f.power = 0 ∨ (decMode f.power f.modeBits).2.isSome
  { sl with
    power := if off then 0 else 1
    mode := if off then sl.mode else f.modeBits
    fan := (decFan f.fanBits).1.getD sl.fan
    swing := decSwing f.swingBit
    target := decTarget b7 }

/-- A slot after a dispatched response (R191, R194). -/
def decodeSlot (c : Config) (f : ResponseFields) (b7 : Byte) (sl : Slot) : Slot :=
  setCur (decCurtemp f.curRaw) (if mayOverwrite c sl then decodeCommanded f b7 sl else sl)

/-- DECODE_INTO_SLOT (R191): the field errors, mode before fan; the slot's registers; at most one PUBLISH (R192). -/
def decodeIntoSlot (k : Nat) (sl : Slot) (f : ResponseFields) (b7 : Byte) (s : State) : State :=
  let s1 := raiseIf (decMode f.power f.modeBits).2 s
  let s2 := raiseIf (decFan f.fanBits).2 s1
  let sl' := decodeSlot s.cfg f b7 sl
  let s3 := setSlot k sl' s2
  if slotObservable sl' = slotObservable sl then s3 else emit (.publish k) s3

/-- The dispatch of a correlated frame: to its slot, or UnknownZone (R187, R190). -/
def dispatchFrame (f : ResponseFields) (b7 : Byte) (s : State) : State :=
  match slotOf s.slots f.zoneId with
  | none => raise .unknownZone s
  | some k =>
    match s.slots[k]? with
    | none => raise .unknownZone s
    | some sl => endCycle (decodeIntoSlot k sl f b7 s)

/-- FRAME_COMPLETE (R187): checksum, correlation, slot, dispatch. The bytes are sixteen, so that FrameTooShort cannot occur
(40_codec.md R125). -/
def frameComplete (s : State) : State :=
  let bytes := bufBytes s.rxbuf
  if verifyChecksum bytes then
    match decodeResponse s.cfg bytes with
    | .error e => raise e s
    | .ok f =>
      if correlate f.zoneId f.requestId s.lastZone s.lastId then dispatchFrame f (bytes.getD 7 0) s
      else raise .uncorrelatedResponse s
  else raise .checksumMismatch s

/-- START (R185) on the byte 0x10, whose offset is 0. -/
def startFrame (b : Byte) (s : State) : Answer :=
  match memWrite 0 b s.rxbuf with
  | .error e => .fault e
  | .ok m => .next { s with rxbuf := m, rxcnt := 1, st := .receiving }

/-- APPEND (R186): every byte is data; the sixteenth completes the frame. -/
def appendByte (b : Byte) (s : State) : Answer :=
  match memWrite s.rxcnt.toNat b s.rxbuf with
  | .error e => .fault e
  | .ok m =>
    let t := { s with rxbuf := m, rxcnt := s.rxcnt + 1 }
    if t.rxcnt = 16 then .next (frameComplete t) else .next t

/-- RX_BYTE (R182): discarded in Idle (R183), noise before 0x10 in AwaitResponse (R184), data in Receiving. -/
def execRxByte (b : Byte) (s : State) : Answer :=
  match s.st with
  | .idle => .next s
  | .awaitResponse => if b = startByte then startFrame b s else .next s
  | .receiving => appendByte b s

/-- RX_BYTE for each byte, in arrival order. -/
def rxBytes : List Byte → State → Answer
  | [], s => .next s
  | b :: bs, s => andThen (execRxByte b s) (rxBytes bs)

/-! ### DRIVE (30_encoding.md R105) -/

/-- DRIVE: RX_BYTE for the first `RX_MAX` bytes the transport holds, then TICK; the bytes beyond them stay in the
transport. -/
def execDrive (now : Time) (bytes : List Byte) (s : State) : Answer :=
  andThen (rxBytes (bytes.take s.cfg.rxMax) s) fun t =>
    .next { tick now t with held := bytes.drop s.cfg.rxMax }

/-! ### The wire frames of spec/opcode_table.json -/

/-- FRAME_REQ: the table calls it a wire frame and not an operation. It has the value of its rule, the eight bytes of R81, and
no other effect (DESIGN CHOICE, notes/assumptions/7.md, safe). -/
def execFrameReq (reqId zone : Byte) (write power : Bit) (fan : BitVec 2) (swing : Bit) (mode : BitVec 3) (temp : Byte)
    (s : State) : Answer :=
  if modeOk mode && fanOk fan && tempByteOk s.cfg temp then
    .next { s with result := some (.request (requestFrame s.cfg zone reqId write power mode swing fan temp)) }
  else .refused .operandRange

/-- FRAME_RESP: the table calls it a wire frame and not an operation. The block receives it as sixteen RX_BYTE operations,
offset 0 first (R61, R86; DESIGN CHOICE, notes/assumptions/8.md, safe). -/
def execFrameResp (bytes : List Byte) (s : State) : Answer :=
  if respFrameOk bytes then rxBytes bytes s else .refused .byteCount

end Sys2Proof.Machine
end

