-- ==== Sys2Proof/Machine/HostIface.lean ====
section
/-! DEFINITION. The host operations (42_host_interface.md) and RESET (70_reset_and_hazards.md R290). -/

namespace Sys2Proof.Machine

/-- The commanded registers of a slot as SET_ZONE and SEED_ZONE write them (R221, R222): power and mode by ENC_MODE, fan by
ENC_FAN. -/
def commandSlot (power : Bit) (mode : BitVec 3) (fan : BitVec 2) (swing : Bit) (target : Byte) (sl : Slot) : Slot :=
  { sl with power := power, mode := mode, fan := encFan fan, swing := swing, target := target }

/-- The state-change request of R221, which SET_ZONE and REQUEST_CHANGE spell. -/
def changeZone (k : Byte) (vmode : BitVec 3) (fan : BitVec 2) (swing : Bit) (target : Byte) (s : State) : Answer :=
  withSlot k s fun sl =>
    match encMode vmode sl.mode with
    | none => .refused .hostVmode
    | some (p, m) => .next (setSlot k.toNat (setPend true (commandSlot p m fan swing target sl)) s)

/-- SET_ZONE (R221). -/
def execSetZone (k : Byte) (vmode : BitVec 3) (fan : BitVec 2) (swing : Bit) (target : Byte) (s : State) : Answer :=
  changeZone k vmode fan swing target s

/-- REQUEST_CHANGE (30_encoding.md R106). -/
def execRequestChange (k : Byte) (vmode : BitVec 3) (fan : BitVec 2) (swing : Bit) (target : Byte) (s : State) : Answer :=
  changeZone k vmode fan swing target s

/-- SEED_ZONE (R222): before the first TICK only. -/
def execSeedZone (k : Byte) (vmode : BitVec 3) (fan : BitVec 2) (swing : Bit) (target : Byte) (s : State) : Answer :=
  withSlot k s fun sl =>
    match encMode vmode sl.mode with
    | none => .refused .hostVmode
    | some (p, m) =>
      if s.run then .refused .seedAfterTick
      else .next (setSlot k.toNat (commandSlot p m fan swing target sl) s)

/-- GET_ZONE (R223). -/
def execGetZone (k : Byte) (s : State) : Answer :=
  withSlot k s fun sl =>
    .next (emit (.getResult k.toNat (slotVmode sl) sl.fan sl.swing sl.target (reportedCur sl) sl.pend) s)

/-- The registers of a slot after RESET; its zone id is configuration. -/
def resetSlot (c : Config) (sl : Slot) : Slot := Slot.reset c.minTemp sl.zid

/-- RESET as a state transformation (R290): the configuration and the output trace are kept, and the model's own fields
(DESIGN CHOICE, notes/assumptions/16.md, safe). -/
def resetRegs (s : State) : State :=
  { s with
    st := .idle
    rxbuf := []
    rxcnt := 0
    seq := 0
    lastId := 0
    lastZone := 0
    rr := holdRr s.cfg (if 1 ≤ s.slots.length then s.slots.length - 1 else 0)
    pollTs := 0
    txTs := 0
    dir := false
    run := false
    slots := s.slots.map (resetSlot s.cfg) }

/-- RESET (R290): a configuration that 00_scope.md R8 refuses cannot be reset. -/
def execReset (s : State) : Answer :=
  if configRefused s then .refused .configuration else .next (resetRegs s)

end Sys2Proof.Machine
end

