-- ==== Sys2Proof/Machine/Dispatch.lean ====
section
/-! DEFINITION. One arm for each row of spec/opcode_table.json, in the table's order. -/

namespace Sys2Proof.Machine

/-- The meaning of each operation. -/
def exec (i : Instr) (s : State) : Host.Outcome State Fault Refusal :=
  match i with
  | .reset => Sys2Proof.Machine.execReset s
  | .tick now => Sys2Proof.Machine.execTick now s
  | .rxByte b => Sys2Proof.Machine.execRxByte b s
  | .setZone k vmode fan swing target => Sys2Proof.Machine.execSetZone k vmode fan swing target s
  | .seedZone k vmode fan swing target => Sys2Proof.Machine.execSeedZone k vmode fan swing target s
  | .getZone k => Sys2Proof.Machine.execGetZone k s
  | .checksum bytes => Sys2Proof.Machine.execChecksum bytes s
  | .verifyChecksum bytes => Sys2Proof.Machine.execVerifyChecksum bytes s
  | .encodeRequest zone reqId write power mode swing fan target => Sys2Proof.Machine.execEncodeRequest zone reqId write power mode swing fan target s
  | .decodeResponse bytes => Sys2Proof.Machine.execDecodeResponse bytes s
  | .encMode vmode prev => Sys2Proof.Machine.execEncMode vmode prev s
  | .decMode power mode => Sys2Proof.Machine.execDecMode power mode s
  | .encFan fan => Sys2Proof.Machine.execEncFan fan s
  | .decFan fanBits => Sys2Proof.Machine.execDecFan fanBits s
  | .encSwing swing => Sys2Proof.Machine.execEncSwing swing s
  | .decSwing swingBit => Sys2Proof.Machine.execDecSwing swingBit s
  | .packStatus write power => Sys2Proof.Machine.execPackStatus write power s
  | .packMsf mode swing fan => Sys2Proof.Machine.execPackMsf mode swing fan s
  | .encTarget target => Sys2Proof.Machine.execEncTarget target s
  | .decTarget tempByte => Sys2Proof.Machine.execDecTarget tempByte s
  | .decCurtemp b => Sys2Proof.Machine.execDecCurtemp b s
  | .correlate respZone respId lastZone lastId => Sys2Proof.Machine.execCorrelate respZone respId lastZone lastId s
  | .requestChange k vmode fan swing target => Sys2Proof.Machine.execRequestChange k vmode fan swing target s
  | .drive now bytes => Sys2Proof.Machine.execDrive now bytes s
  | .frameReq reqId zone write power fan swing mode temp => Sys2Proof.Machine.execFrameReq reqId zone write power fan swing mode temp s
  | .frameResp bytes => Sys2Proof.Machine.execFrameResp bytes s

end Sys2Proof.Machine
end

