-- ==== Sys2Proof/WellFormed.lean ====
section
/-! DEFINITION. Which terms of `Instr` stand for an operation the spec gives a meaning: the operand ranges of
30_encoding.md R102, of the rules it names and of the wire formats, which need no state. The range of a slot index, and the
rule that SEED_ZONE comes before the first TICK, are judged by the meanings. -/

namespace Sys2Proof

/-- The operands of an operation are in their ranges. The configuration enters only through the temperature byte of a
request frame (30_encoding.md R84). -/
def Instr.wellFormed (c : Config) : Instr → Bool
  | .reset => true
  | .tick _ => true
  | .rxByte _ => true
  | .setZone _ vmode _ _ _ => Machine.vmodeOk vmode
  | .seedZone _ vmode _ _ _ => Machine.vmodeOk vmode
  | .getZone _ => true
  | .checksum bytes => Machine.checksumCountOk bytes
  | .verifyChecksum bytes => Machine.checksumCountOk bytes
  | .encodeRequest _ _ _ _ mode _ fan _ => Machine.modeOk mode && Machine.fanOk fan
  | .decodeResponse bytes => Machine.responseCountOk bytes
  | .encMode vmode prev => Machine.vmodeOk vmode && Machine.modeOk prev
  | .decMode _ _ => true
  | .encFan _ => true
  | .decFan _ => true
  | .encSwing _ => true
  | .decSwing _ => true
  | .packStatus _ _ => true
  | .packMsf mode _ fan => Machine.modeOk mode && Machine.fanOk fan
  | .encTarget _ => true
  | .decTarget _ => true
  | .decCurtemp _ => true
  | .correlate _ _ _ _ => true
  | .requestChange _ vmode _ _ _ => Machine.vmodeOk vmode
  | .drive _ bytes => bytes.length ≤ 255
  | .frameReq _ _ _ _ fan _ mode temp => Machine.modeOk mode && Machine.fanOk fan && Machine.tempByteOk c temp
  | .frameResp bytes => Machine.respFrameOk bytes

end Sys2Proof
end

