-- ==== Sys2Proof/Decode.lean ====
section
/-! DEFINITION. The decoder, total on any record, and after it the encoder. An operation record is its op code and then its
operands in whole bytes (30_encoding.md R100, R101 and R104); the two wire frames have the layouts of R81 and R86; the
operands of DRIVE, which has no op code (R105), are packed as R104 packs operands (notes/assumptions/5.md). -/

namespace Sys2Proof

/-- A byte that holds an operand of `w` bits, taken off the front. -/
def takeField (w : Nat) : List Byte → Except DecodeError (BitVec w × List Byte)
  | [] => .error .missingBytes
  | b :: rest =>
    match Machine.fit w b with
    | .ok v => .ok (v, rest)
    | .error e => .error e

/-- A clock value, taken off the front. -/
def takeTime : List Byte → Except DecodeError (Time × List Byte)
  | b0 :: b1 :: b2 :: b3 :: rest => .ok (Machine.timeOfBytes b0 b1 b2 b3, rest)
  | _ => .error .missingBytes

/-- A byte sequence behind its count, which has `w` bits, taken off the front. -/
def takeBytes (w : Nat) (bytes : List Byte) : Except DecodeError (List Byte × List Byte) := do
  let (n, rest) ← takeField w bytes
  if n.toNat ≤ rest.length then .ok (rest.take n.toNat, rest.drop n.toNat) else .error .missingBytes

/-- The operands of SET_ZONE and SEED_ZONE. -/
def takeZone (mk : Byte → BitVec 3 → BitVec 2 → Bit → Byte → Instr) (bytes : List Byte) :
    Except DecodeError (Instr × List Byte) := do
  let (k, r1) ← takeField 8 bytes
  let (vmode, r2) ← takeField 3 r1
  let (fan, r3) ← takeField 2 r2
  let (swing, r4) ← takeField 1 r3
  let (target, r5) ← takeField 8 r4
  .ok (mk k vmode fan swing target, r5)

/-- One operand of `w` bits. -/
def takeOne {w : Nat} (mk : BitVec w → Instr) (bytes : List Byte) : Except DecodeError (Instr × List Byte) := do
  let (v, r) ← takeField w bytes
  .ok (mk v, r)

/-- Two operands. -/
def takeTwo {v w : Nat} (mk : BitVec v → BitVec w → Instr) (bytes : List Byte) : Except DecodeError (Instr × List Byte) := do
  let (x, r1) ← takeField v bytes
  let (y, r2) ← takeField w r1
  .ok (mk x y, r2)

/-- A byte sequence with the count of 5 bits. -/
def takeSequence (mk : List Byte → Instr) (bytes : List Byte) : Except DecodeError (Instr × List Byte) := do
  let (bs, r) ← takeBytes 5 bytes
  .ok (mk bs, r)

/-- The operands of ENCODE_REQUEST. -/
def takeRequest (bytes : List Byte) : Except DecodeError (Instr × List Byte) := do
  let (zone, r1) ← takeField 8 bytes
  let (reqId, r2) ← takeField 8 r1
  let (write, r3) ← takeField 1 r2
  let (power, r4) ← takeField 1 r3
  let (mode, r5) ← takeField 3 r4
  let (swing, r6) ← takeField 1 r5
  let (fan, r7) ← takeField 2 r6
  let (target, r8) ← takeField 8 r7
  .ok (.encodeRequest zone reqId write power mode swing fan target, r8)

/-- The operands of PACK_MSF. -/
def takeMsf (bytes : List Byte) : Except DecodeError (Instr × List Byte) := do
  let (mode, r1) ← takeField 3 bytes
  let (swing, r2) ← takeField 1 r1
  let (fan, r3) ← takeField 2 r2
  .ok (.packMsf mode swing fan, r3)

/-- The operands of CORRELATE. -/
def takeCorrelate (bytes : List Byte) : Except DecodeError (Instr × List Byte) := do
  let (respZone, r1) ← takeField 8 bytes
  let (respId, r2) ← takeField 8 r1
  let (lastZone, r3) ← takeField 8 r2
  let (lastId, r4) ← takeField 8 r3
  .ok (.correlate respZone respId lastZone lastId, r4)

/-- The operands behind an op code, by the operation map of R101; every other op code is refused (R99). -/
def operandsOf (op : Byte) (bytes : List Byte) : Except DecodeError (Instr × List Byte) :=
  match op with
  | 0x00#8 => .ok (.reset, bytes)
  | 0x01#8 => do
    let (now, r) ← takeTime bytes
    .ok (.tick now, r)
  | 0x02#8 => takeOne .rxByte bytes
  | 0x03#8 => takeZone .setZone bytes
  | 0x04#8 => takeZone .seedZone bytes
  | 0x05#8 => takeOne .getZone bytes
  | 0x10#8 => takeSequence .checksum bytes
  | 0x11#8 => takeSequence .verifyChecksum bytes
  | 0x12#8 => takeRequest bytes
  | 0x13#8 => takeSequence .decodeResponse bytes
  | 0x14#8 => takeTwo .encMode bytes
  | 0x15#8 => takeTwo .decMode bytes
  | 0x16#8 => takeOne .encFan bytes
  | 0x17#8 => takeOne .decFan bytes
  | 0x18#8 => takeOne .encSwing bytes
  | 0x19#8 => takeOne .decSwing bytes
  | 0x1A#8 => takeTwo .packStatus bytes
  | 0x1B#8 => takeMsf bytes
  | 0x1C#8 => takeOne .encTarget bytes
  | 0x1D#8 => takeOne .decTarget bytes
  | 0x1E#8 => takeOne .decCurtemp bytes
  | 0x1F#8 => takeCorrelate bytes
  | _ => .error .unknownOpcode

/-- The operation at the front of a byte sequence, with the bytes after it. -/
def takeOperation : List Byte → Except DecodeError (Instr × List Byte)
  | [] => .error .missingBytes
  | op :: bytes => operandsOf op bytes

/-- The operands of DRIVE: `now`, then the bytes behind a count of one byte. -/
def takeDrive (bytes : List Byte) : Except DecodeError (Instr × List Byte) := do
  let (now, r1) ← takeTime bytes
  let (bs, r2) ← takeBytes 8 r1
  .ok (.drive now bs, r2)

/-- The whole record is one operation (DEDUCED, notes/assumptions/12.md, safe). -/
def whole : Except DecodeError (Instr × List Byte) → Except DecodeError Instr
  | .ok (i, []) => .ok i
  | .ok (_, _ :: _) => .error .trailingBytes
  | .error e => .error e

/-- A request frame (R81): eight bytes, with the configured header bytes, 0 in every bit that R82 to R84 transmit as 0, and
its checksum last. -/
def decodeRequestFrame (c : Config) : List Byte → Except DecodeError Instr
  | [h0, h1, reqId, zone, status, msf, temp, cs] =>
    let power : Bit := status.extractLsb' 0 1
    let write : Bit := if status &&& c.writeFlagMask = 0 then 0 else 1
    let mode := msf.extractLsb' 0 3
    let swing : Bit := msf.extractLsb' 3 1
    let fan := msf.extractLsb' 4 2
    if h0 ≠ c.hdr0 ∨ h1 ≠ c.hdr1 then .error .badHeader
    else if Machine.packStatus c write power ≠ status ∨ Machine.packMsf mode swing fan ≠ msf
        ∨ Machine.tempByteOk c temp = false then .error .reservedBits
    else if Machine.checksum [h0, h1, reqId, zone, status, msf, temp, cs] ≠ cs then .error .badChecksum
    else .ok (.frameReq reqId zone write power fan swing mode temp)
  | bytes => if bytes.length < 8 then .error .missingBytes else .error .trailingBytes

/-- A response frame (R86): sixteen bytes from the start byte on. -/
def decodeResponseFrame (bytes : List Byte) : Except DecodeError Instr :=
  if bytes.length < Machine.respLen then .error .missingBytes
  else if Machine.respLen < bytes.length then .error .trailingBytes
  else if bytes.head? = some Machine.startByte then .ok (.frameResp bytes)
  else .error .noStartByte

/-- The decoder: a record of any format, refused by name where it is none. -/
def decode (c : Config) (r : Record) : Except DecodeError Instr :=
  match r.fmt with
  | .op => whole (takeOperation r.bytes)
  | .pseudo => whole (takeDrive r.bytes)
  | .req => decodeRequestFrame c r.bytes
  | .resp => decodeResponseFrame r.bytes

/-- A byte sequence behind its count (R104). -/
def countedBytes (bytes : List Byte) : List Byte := BitVec.ofNat 8 bytes.length :: bytes

/-- The record of an operation: its op code and its operands (R101, R104), or the bytes of a wire frame (R81, R86).
REQUEST_CHANGE has the record of SET_ZONE (R106). -/
def encode (c : Config) : Instr → Record
  | .reset => ⟨.op, [0x00]⟩
  | .tick now => ⟨.op, 0x01 :: Machine.timeBytes now⟩
  | .rxByte b => ⟨.op, [0x02, b]⟩
  | .setZone k vmode fan swing target =>
    ⟨.op, [0x03, k, Machine.zext8 vmode, Machine.zext8 fan, Machine.zext8 swing, target]⟩
  | .seedZone k vmode fan swing target =>
    ⟨.op, [0x04, k, Machine.zext8 vmode, Machine.zext8 fan, Machine.zext8 swing, target]⟩
  | .getZone k => ⟨.op, [0x05, k]⟩
  | .checksum bytes => ⟨.op, 0x10 :: countedBytes bytes⟩
  | .verifyChecksum bytes => ⟨.op, 0x11 :: countedBytes bytes⟩
  | .encodeRequest zone reqId write power mode swing fan target =>
    ⟨.op, [0x12, zone, reqId, Machine.zext8 write, Machine.zext8 power, Machine.zext8 mode, Machine.zext8 swing,
      Machine.zext8 fan, target]⟩
  | .decodeResponse bytes => ⟨.op, 0x13 :: countedBytes bytes⟩
  | .encMode vmode prev => ⟨.op, [0x14, Machine.zext8 vmode, Machine.zext8 prev]⟩
  | .decMode power mode => ⟨.op, [0x15, Machine.zext8 power, Machine.zext8 mode]⟩
  | .encFan fan => ⟨.op, [0x16, Machine.zext8 fan]⟩
  | .decFan fanBits => ⟨.op, [0x17, Machine.zext8 fanBits]⟩
  | .encSwing swing => ⟨.op, [0x18, Machine.zext8 swing]⟩
  | .decSwing swingBit => ⟨.op, [0x19, Machine.zext8 swingBit]⟩
  | .packStatus write power => ⟨.op, [0x1A, Machine.zext8 write, Machine.zext8 power]⟩
  | .packMsf mode swing fan => ⟨.op, [0x1B, Machine.zext8 mode, Machine.zext8 swing, Machine.zext8 fan]⟩
  | .encTarget target => ⟨.op, [0x1C, target]⟩
  | .decTarget tempByte => ⟨.op, [0x1D, tempByte]⟩
  | .decCurtemp b => ⟨.op, [0x1E, b]⟩
  | .correlate respZone respId lastZone lastId => ⟨.op, [0x1F, respZone, respId, lastZone, lastId]⟩
  | .requestChange k vmode fan swing target =>
    ⟨.op, [0x03, k, Machine.zext8 vmode, Machine.zext8 fan, Machine.zext8 swing, target]⟩
  | .drive now bytes => ⟨.pseudo, Machine.timeBytes now ++ countedBytes bytes⟩
  | .frameReq reqId zone write power fan swing mode temp =>
    ⟨.req, Machine.requestFrame c zone reqId write power mode swing fan temp⟩
  | .frameResp bytes => ⟨.resp, bytes⟩

/-- The operation a record spells: REQUEST_CHANGE is SET_ZONE under another name (R106), every other term is itself. -/
def Instr.canonical : Instr → Instr
  | .requestChange k vmode fan swing target => .setZone k vmode fan swing target
  | i => i

/-- `n` bytes of a number, its least significant byte first. -/
def bytesOfNat (w : Nat) : Nat → List Byte
  | 0 => []
  | n + 1 => BitVec.ofNat 8 w :: bytesOfNat (w / 256) n

/-- Bytes of the longest operation record: an op code, a count and the 31 bytes a count of 5 bits can announce. -/
def longestRecord : Nat := 33

/-- The record whose bits are `w`, numbered as spec/opcode_table.json numbers them: 64 and 128 bits are the table's two wire
frames; any other width is an operation record, whose bits above `nbits` are 0 up to the end of that operation. -/
def tableRecord (nbits w : Nat) : Record :=
  match nbits with
  | 64 => ⟨.req, bytesOfNat w 8⟩
  | 128 => ⟨.resp, bytesOfNat w 16⟩
  | _ =>
    let padded := bytesOfNat (w % 2 ^ nbits) longestRecord
    match takeOperation padded with
    | .ok (_, rest) => ⟨.op, padded.take (padded.length - rest.length)⟩
    | .error _ => ⟨.op, padded⟩

/-- What the decoder reads from a row's word, under the configuration `Config.t0`; only a request frame depends on it. -/
def decodeTableWord (nbits w : Nat) : Option Instr := (decode Config.t0 (tableRecord nbits w)).toOption

end Sys2Proof
end

