-- ==== Sys2Proof/Machine/Fetch.lean ====
section
/-! DEFINITION. Taking the next presented operation off the input (20_memory.md R70). -/

namespace Sys2Proof.Machine

/-- What the input presents next. -/
inductive Fetched where
  /-- Nothing is presented: the block waits (60_exceptions.md R270). -/
  | nothing
  /-- An operation, and the state with it taken off the input. -/
  | operation (i : Instr) (s : State)
  /-- A record that is no operation (30_encoding.md R99, R102), or a configuration that 00_scope.md R8 refuses. -/
  | none (r : Refusal)
  deriving DecidableEq, Repr

/-- The next presented operation. A refused configuration is judged here (DESIGN CHOICE, notes/assumptions/9.md). -/
def fetch (s : State) : Fetched :=
  match s.input with
  | [] => .nothing
  | r :: rest =>
    if configRefused s then .none .configuration
    else
      match decode s.cfg r with
      | .error e => .none (.badRecord e)
      | .ok i => .operation i { s with input := rest }

/-- The record presented next, before any other. -/
def present (r : Record) (s : State) : State := { s with input := r :: s.input }

end Sys2Proof.Machine
end

