-- ==== Sys2Proof/Machine/Step.lean ====
section
/-! DEFINITION. One step: the next presented operation is performed, whole, before the one after it (20_memory.md R66 and
R70). -/

namespace Sys2Proof.Machine

/-- One step. With nothing presented the block waits: every register keeps its value (60_exceptions.md R270). -/
def step (s : State) : Host.Outcome State Fault Refusal :=
  match fetch s with
  | .nothing => .next s
  | .operation i t => exec i t
  | .none r => .refused r

/-- The state with the operation of a table word presented next (notes/assumptions/3.md). -/
def State.withFetchWord (s : State) (nbits w : Nat) : State := present (tableRecord nbits w) s

end Sys2Proof.Machine
end

