-- ==== Sys2Proof/Safety.lean ====
section
/-! DEFINITION. What counts as a safe run: the invariants of 10_state.md R46, the direction bracket of 20_memory.md R71 and
R72 over the output trace, and the round-robin steps of a run (41_controller.md R196). -/

namespace Sys2Proof.Safety

open Sys2Proof.Machine

/-- Some slot is active and pending: the write step of R176 applies. -/
def WritePending (s : State) : Prop := ∃ sl ∈ s.slots, sl.pend = true ∧ slotActive sl = true

/-- A zone id is that of an active slot. -/
def ActiveZone (s : State) (zone : Byte) : Prop := ∃ sl ∈ s.slots, slotActive sl = true ∧ slotZone sl = zone

/-- The invariants of 10_state.md R46, with the registry facts they rest on: the configuration is not refused, N is at most
NZ_MAX, the buffer is in canonical form, and RR is a slot index that fits its width (R29). `ST != 3` holds by the type of
ST. -/
structure Inv (s : State) : Prop where
  /-- The configuration is one 00_scope.md R8 accepts. -/
  config : configRefused s = false
  /-- The receive buffer is in canonical form. -/
  buffer : Memory.wf s.rxbuf = true
  /-- `DIR = 0` between operations. -/
  dirLow : s.dir = false
  /-- `ST = Idle` or `ST = AwaitResponse` implies `RXCNT = 0` and a cleared buffer (10_state.md R24). -/
  quiet : s.st ≠ .receiving → s.rxcnt = 0 ∧ s.rxbuf = []
  /-- `ST = Receiving` implies `1 <= RXCNT <= 15` and `RXBUF[0] = 0x10`. -/
  receiving : s.st = .receiving → 1 ≤ s.rxcnt.toNat ∧ s.rxcnt.toNat ≤ 15 ∧ bufGet s.rxbuf 0 = startByte
  /-- `MODE[k] <= 4` and `FAN[k] <= 2` for every k. -/
  slotsLegal : ∀ sl ∈ s.slots, modeOk sl.mode = true ∧ fanOk sl.fan = true
  /-- `N <= NZ_MAX` (00_scope.md R7). -/
  registry : s.slots.length ≤ s.cfg.nzMax
  /-- `RR` fits its `ceil(log2(NZ_MAX))` bits, at least 1 (10_state.md R29, R48). -/
  rrBits : s.rr < 2 ^ rrWidth s.cfg
  /-- `RR` is a slot index, and 0 without slots. -/
  rrIndex : s.rr < s.slots.length ∨ (s.slots = [] ∧ s.rr = 0)
  /-- `RUN = 0` implies that nothing has been transmitted: the controller registers are at their reset values. -/
  beforeRun : s.run = false →
    s.st = .idle ∧ s.seq = 0 ∧ s.lastId = 0 ∧ s.lastZone = 0 ∧ s.pollTs = 0 ∧ s.txTs = 0 ∧ s.rr = s.slots.length - 1
  /-- Outside Idle a request is outstanding, and LAST_ZONE is the id of an active slot. -/
  lastZoneActive : s.st ≠ .idle → ActiveZone s s.lastZone

/-! ### The direction bracket (R71, R72, R173) -/

/-- Where the trace stands in a transmission. -/
inductive TxPhase where
  /-- Outside a transmission: DIR is deasserted. -/
  | quiet
  /-- DIR asserted and `n` bytes written. -/
  | sending (n : Nat)
  /-- The eight bytes are flushed. -/
  | flushed
  deriving DecidableEq, Repr

/-- The phase after an event; `none` where the event breaks the bracket. -/
def txNext : TxPhase → Event → Option TxPhase
  | .quiet, .dirAssert => some (.sending 0)
  | .quiet, .txByte _ => none
  | .quiet, .flush => none
  | .quiet, .dirDeassert => none
  | .quiet, _ => some .quiet
  | .sending n, .txByte _ => if n < 8 then some (.sending (n + 1)) else none
  | .sending n, .flush => if n = 8 then some .flushed else none
  | .sending _, _ => none
  | .flushed, .dirDeassert => some .quiet
  | .flushed, _ => none

/-- The phase after a sequence of events. -/
def txPhase : Option TxPhase → List Event → Option TxPhase
  | p, [] => p
  | none, _ :: _ => none
  | some p, e :: es => txPhase (txNext p e) es

/-- The trace is a sequence of whole transmissions (DIR_ASSERT, eight TX_BYTE, FLUSH, DIR_DEASSERT) and, outside them, events
that transmit nothing. -/
def Bracketed (trace : List Event) : Prop := txPhase (some .quiet) trace = some .quiet

/-- The number of bytes a sequence of events transmits. -/
def txCount (es : List Event) : Nat := (es.filter fun e => match e with | .txByte _ => true | _ => false).length

/-- The events of one transmission (R71). -/
def transmission (f : List Byte) : List Event := .dirAssert :: (f.map .txByte ++ [.flush, .dirDeassert])

/-! ### Round-robin steps (R179, R196) -/

/-- The slot index a tick's round-robin step lands on, where the tick takes one (R176, R179). -/
def tickPollIndex (now : Time) (s : State) : Option Nat :=
  if s.st = .idle ∧ firstPending s.slots = none ∧ 1 ≤ s.slots.length
      ∧ elapsed now s.pollTs s.cfg.pollInterval = true then
    some ((s.rr + 1) % s.slots.length)
  else none

/-- The slot index an operation's round-robin step lands on: that of a TICK, alone or after the bytes of a DRIVE. -/
def pollIndex (i : Instr) (s : State) : Option Nat :=
  match i with
  | .tick now => tickPollIndex now s
  | .drive now bytes =>
    match rxBytes (bytes.take s.cfg.rxMax) s with
    | .next u => tickPollIndex now u
    | .fault _ => none
    | .refused _ => none
  | _ => none

/-- The slot indices of the round-robin steps of a sequence of operations, in order, up to the first stop. -/
def pollOrder : List Instr → State → List Nat
  | [], _ => []
  | i :: is, s =>
    match exec i s with
    | .next t => (pollIndex i s).toList ++ pollOrder is t
    | .fault _ => []
    | .refused _ => []

/-! ### Sequences of operations -/

/-- Operations one after another, up to the first stop (20_memory.md R70). -/
def execAll : List Instr → State → Answer
  | [], s => .next s
  | i :: is, s => andThen (exec i s) (execAll is)

/-- `n` steps, up to the first stop. -/
def runSteps : Nat → State → Answer
  | 0, s => .next s
  | n + 1, s => andThen (step s) (runSteps n)

/-- The records of the operations that DRIVE expands to (30_encoding.md R105). -/
def driveRecords (c : Config) (now : Time) (bytes : List Byte) : List Record :=
  bytes.map (fun b => encode c (.rxByte b)) ++ [encode c (.tick now)]

/-! ### Operand widths (30_encoding.md R101) -/

/-- The op codes whose operands are all of at most 8 bits, with the widths of their operands, as R101 lists them. -/
def fixedOperands : List (Byte × List Nat) :=
  [(0x02, [8]), (0x03, [8, 3, 2, 1, 8]), (0x04, [8, 3, 2, 1, 8]), (0x05, [8]), (0x12, [8, 8, 1, 1, 3, 1, 2, 8]),
    (0x14, [3, 3]), (0x15, [1, 3]), (0x16, [2]), (0x17, [3]), (0x18, [1]), (0x19, [1]), (0x1A, [1, 1]), (0x1B, [3, 1, 2]),
    (0x1C, [8]), (0x1D, [8]), (0x1E, [8]), (0x1F, [8, 8, 8, 8])]

/-- Some operand byte does not fit the width at its place. -/
def Oversized : List Nat → List Byte → Prop
  | w :: ws, b :: bs => 2 ^ w ≤ b.toNat ∨ Oversized ws bs
  | _, _ => False

/-! ### Frames, in the numbers of the wire rules -/

/-- The sum of the bytes modulo 256, XOR 0x55 (30_encoding.md R85). -/
def sumXor (bytes : List Byte) : Byte := BitVec.ofNat 8 (bytes.map BitVec.toNat).sum ^^^ 0x55#8

/-- The sixteen bytes of the frame that byte `b` completes: offsets 0 to 14 of the buffer, and `b` at offset 15. -/
def completedFrame (s : State) (b : Byte) : List Byte := (List.range 15).map (bufGet s.rxbuf) ++ [b]

/-- The last byte of a frame is its checksum (R85). -/
def ChecksumGood (frame : List Byte) : Prop := frame.getLast? = some (sumXor frame.dropLast)

/-- A frame answers the outstanding request (41_controller.md R188): its zone id is LAST_ZONE and its request id is LAST_ID or
the one before it. -/
def Correlated (s : State) (frame : List Byte) : Prop :=
  frame.getD 4 0 = s.lastZone ∧
    ∃ id, frame[s.cfg.respReqidOffset]? = some id ∧
      (id = s.lastId ∨ (id.toNat + 1) % 256 = s.lastId.toNat)

/-- A slot after a response may write it (41_controller.md R191): the commanded fields from bytes 1, 6 and 7. -/
def respondedCommanded (frame : List Byte) (sl : Slot) : Slot :=
  let on := (frame.getD 1 0).toNat % 2 = 1 ∧ (frame.getD 6 0).toNat % 8 ≤ 4
  let fan := (frame.getD 6 0).toNat / 16 % 8
  { sl with
    power := if on then 1 else 0
    mode := if on then BitVec.ofNat 3 ((frame.getD 6 0).toNat % 8) else sl.mode
    fan := if fan ≤ 2 then BitVec.ofNat 2 fan else sl.fan
    swing := BitVec.ofNat 1 ((frame.getD 6 0).toNat / 8 % 2)
    target := BitVec.ofNat 8 ((frame.getD 7 0).toNat % 16 + 15) }

/-- A slot after a dispatched response (R191, R194): a pending slot keeps its commanded fields unless
`DECODE_OVERWRITES_PENDING`; the current temperature is byte 8's. -/
def responded (c : Config) (frame : List Byte) (sl : Slot) : Slot :=
  let commanded :=
    if sl.pend = true ∧ c.decodeOverwritesPending = false then sl else respondedCommanded frame sl
  { commanded with cur := decCurtemp (frame.getD 8 0), curValid := true }

/-- The fields whose change is published (R192). -/
abbrev SameObservable (sl sl' : Slot) : Prop :=
  (if sl.power = 0 then 5#3 else sl.mode) = (if sl'.power = 0 then 5#3 else sl'.mode) ∧ sl.fan = sl'.fan ∧
    sl.swing = sl'.swing ∧ sl.target = sl'.target ∧ sl.curValid = sl'.curValid ∧ sl.cur = sl'.cur

/-- The events of a dispatched response (R191, R257): ERR(6, 0), then ERR(6, 1), then PUBLISH. -/
def dispatchEvents (c : Config) (k : Nat) (frame : List Byte) (sl : Slot) : List Event :=
  (if (frame.getD 1 0).toNat % 2 = 1 ∧ 4 < (frame.getD 6 0).toNat % 8 then [.err 6 0] else []) ++
  (if 2 < (frame.getD 6 0).toNat / 16 % 8 then [.err 6 1] else []) ++
  (if SameObservable sl (responded c frame sl) then [] else [.publish k])

/-- The state after a dispatched response to slot k (R187, R191 and R193). -/
def dispatched (s : State) (k : Nat) (frame : List Byte) (sl : Slot) : State :=
  { s with
    st := .idle
    rxbuf := []
    rxcnt := 0
    slots := s.slots.set k (responded s.cfg frame sl)
    trace := s.trace ++ dispatchEvents s.cfg k frame sl }

/-- The state after a frame cycle that ends with an error (60_exceptions.md R262): the event, and nothing else changed but
ST, RXBUF and RXCNT. -/
def abandoned (s : State) (code : Nat) : State :=
  { s with st := .idle, rxbuf := [], rxcnt := 0, trace := s.trace ++ [.err code 0] }

end Sys2Proof.Safety
end

