-- ==== Sys2Proof/Certificates/Slice0/Obligations.lean ====
section
/-! DEFINITION. The statements about the model. OBLIGATIONS.json gives each its rule of spec/. In the equations a field that is
not named keeps its value: that is the frame of the operation. A value that a combinational operation returns stands in
`result`, the model's return channel (notes/assumptions/4.md). -/

open Sys2Proof Sys2Proof.Machine Sys2Proof.Safety

/-! ### Presented operations and their records -/

/-- A step performs the next presented operation, whole, on the state with it taken off the input (20_memory.md R66, R70; the
input is the model's, notes/assumptions/3.md). -/
def Obligations.StepPerformsNextOperation : Prop :=
  ∀ (s : State) (r : Record) (rest : List Record) (i : Instr),
    s.input = r :: rest → configRefused s = false → decode s.cfg r = .ok i → i.wellFormed s.cfg = true →
    step s = exec i { s with input := rest }

/-- Without an operation the block waits (60_exceptions.md R270); a record that is no operation, and a configuration with
duplicate or oversized ids, are refused by name (R254). The input that holds the records is the model's
(notes/assumptions/3.md), and so is that a refused configuration is judged at a presented operation, before its record
(notes/assumptions/9.md). -/
def Obligations.StepWaitsOrRefuses : Prop :=
  ∀ (s : State),
    (s.input = [] → step s = .next s) ∧
    ∀ (r : Record) (rest : List Record), s.input = r :: rest →
      (configRefused s = true → step s = .refused .configuration) ∧
      ∀ e, configRefused s = false → decode s.cfg r = .error e → step s = .refused (.badRecord e)

/-- A configuration is refused exactly when some id is above 255 or two active slots share an id (00_scope.md R8). That no other
configuration is refused, N above NZ_MAX and RX_MAX 0 among them, is the model's reading of R254 (notes/assumptions/10.md). -/
def Obligations.RefusedConfigurations : Prop :=
  ∀ (s : State),
    configRefused s = true ↔
      (∃ sl ∈ s.slots, 255 < sl.zid) ∨
      ∃ (j k : Nat) (a b : Slot), j < k ∧ s.slots[j]? = some a ∧ s.slots[k]? = some b ∧ a.zid = b.zid ∧
        0 ≤ a.zid ∧ a.zid ≤ 255

/-- Records that 95_test_vectors.md prints decode to the operations it prints beside them, under any configuration. -/
def Obligations.PrintedRecordsDecode : Prop :=
  ∀ (c : Config),
    decode c ⟨.op, [0x00]⟩ = .ok .reset ∧
    decode c ⟨.op, [0x01, 0x2C, 0x01, 0x00, 0x00]⟩ = .ok (.tick 300) ∧
    decode c ⟨.op, [0x02, 0x7E]⟩ = .ok (.rxByte 0x7E) ∧
    decode c ⟨.op, [0x03, 0x01, 0x00, 0x01, 0x01, 0x15]⟩ = .ok (.setZone 1 0 1 1 21) ∧
    decode c ⟨.op, [0x04, 0x00, 0x04, 0x00, 0x00, 0x18]⟩ = .ok (.seedZone 0 4 0 0 24) ∧
    decode c ⟨.op, [0x05, 0x01]⟩ = .ok (.getZone 1)

/-- Decoding the record of a well-formed operation gives that operation back, in every format and at every operand value;
REQUEST_CHANGE, whose record is SET_ZONE's, comes back as SET_ZONE (30_encoding.md R106). A request frame needs a write flag
that is a bit other than the power bit (R82). R105 gives DRIVE no record: its packing, of up to 255 bytes, is the model's choice
(notes/assumptions/5.md). -/
def Obligations.DecodeEncodeRoundTrip : Prop :=
  ∀ (c : Config) (i : Instr), c.writeFlagMask ≠ 0 → c.writeFlagMask &&& 1 = 0 → i.wellFormed c = true →
    decode c (encode c i) = .ok i.canonical

/-- Every record that decodes is the record of what it decodes to: no operation has two records, and no bit of a record is
dropped. That a record with left-over bytes does not decode is the model's reading of R100 and R104 (notes/assumptions/12.md),
and the record of DRIVE is its choice (notes/assumptions/5.md). -/
def Obligations.EncodeDecodeRoundTrip : Prop :=
  ∀ (c : Config) (r : Record) (i : Instr), decode c r = .ok i → encode c i = r

/-- An op code outside the map of 30_encoding.md R101 is refused (R99). -/
def Obligations.UnmappedOpCodesRefused : Prop :=
  ∀ (s : State) (op : Byte) (bytes : List Byte) (rest : List Record),
    s.input = ⟨.op, op :: bytes⟩ :: rest → configRefused s = false →
    5 < op.toNat ∧ op.toNat < 16 ∨ 31 < op.toNat →
    step s = .refused (.badRecord .unknownOpcode)

/-- Operands outside their ranges are refused. By width (30_encoding.md R101, R102): an operand byte that does not fit, of every
operation whose operands have at most 8 bits, and a count of CHECKSUM, VERIFY_CHECKSUM or DECODE_RESPONSE that does not fit its
5 bits; the four bytes of TICK's operand always fit. By value: what R122, R127 and R134 leave out of the operands of
VERIFY_CHECKSUM, ENC_MODE and PACK_MSF; that these three are refused is the model's reading of R254
(notes/assumptions/11.md). -/
def Obligations.OutOfRangeOperandsRefused : Prop :=
  (∀ (c : Config) (op : Byte) (widths : List Nat) (bytes : List Byte), (op, widths) ∈ fixedOperands →
    bytes.length = widths.length → Oversized widths bytes → decode c ⟨.op, op :: bytes⟩ = .error .operandTooWide) ∧
  (∀ (c : Config) (op n : Byte) (bytes : List Byte), op = 0x10 ∨ op = 0x11 ∨ op = 0x13 → 32 ≤ n.toNat →
    decode c ⟨.op, op :: n :: bytes⟩ = .error .operandTooWide) ∧
  (∀ (s : State) (bytes : List Byte), 16 < bytes.length → exec (.verifyChecksum bytes) s = .refused .byteCount) ∧
  (∀ (s : State) (vmode prev : BitVec 3), vmode.toNat ≤ 5 → 4 < prev.toNat →
    exec (.encMode vmode prev) s = .refused .operandRange) ∧
  (∀ (s : State) (mode : BitVec 3) (swing : Bit) (fan : BitVec 2), 4 < mode.toNat ∨ 2 < fan.toNat →
    exec (.packMsf mode swing fan) s = .refused .operandRange)

/-! ### FrameCodec -/

/-- CHECKSUM (40_codec.md R121): the sum modulo 256 of all bytes but the last, XOR 0x55; a count outside 1..16 is refused. -/
def Obligations.ChecksumResult : Prop :=
  ∀ (s : State) (bytes : List Byte),
    exec (.checksum bytes) s =
      if 1 ≤ bytes.length ∧ bytes.length ≤ 16 then .next { s with result := some (.checksum (sumXor bytes.dropLast)) }
      else .refused .byteCount

/-- VERIFY_CHECKSUM (40_codec.md R122): the last byte equals the checksum of the bytes before it; no bytes are refused
(30_encoding.md R102). -/
def Obligations.VerifyChecksumResult : Prop :=
  ∀ (s : State) (bytes : List Byte), bytes.length ≤ 16 →
    exec (.verifyChecksum bytes) s =
      if 1 ≤ bytes.length then
        .next { s with result := some (.verified (decide (bytes.getLast? = some (sumXor bytes.dropLast)))) }
      else .refused .byteCount

/-- ENCODE_REQUEST (40_codec.md R123): the eight bytes of the request, under both temperature policies; a mode above 4 or a fan
above 2 is refused. -/
def Obligations.EncodeRequestResult : Prop :=
  ∀ (s : State) (zone reqId : Byte) (write power : Bit) (mode : BitVec 3) (swing : Bit) (fan : BitVec 2) (target : Byte),
    let status := BitVec.ofNat 8 power.toNat ||| (if write = 1 then s.cfg.writeFlagMask else 0)
    let msf := BitVec.ofNat 8 (mode.toNat + 8 * swing.toNat + 16 * fan.toNat)
    let temp := match s.cfg.tempPolicy with
      | .clamp => BitVec.ofNat 8 (min (target.toNat - 15) 15)
      | .truncByte => target - 15
    let body := [s.cfg.hdr0, s.cfg.hdr1, reqId, zone, status, msf, temp]
    exec (.encodeRequest zone reqId write power mode swing fan target) s =
      if mode.toNat ≤ 4 ∧ fan.toNat ≤ 2 then .next { s with result := some (.request (body ++ [sumXor body])) }
      else .refused .operandRange

/-- DECODE_RESPONSE (40_codec.md R124): FrameTooShort below 9 bytes; the raw fields of bytes 1, 4, 6, 7 and 8 and of
RESP_REQID_OFFSET from 9 to 16 bytes; above 16 refused. Where RESP_REQID_OFFSET holds no byte the rule states no value, and the
request id is some value the statement leaves open (notes/assumptions/2.md). -/
def Obligations.DecodeResponseResult : Prop :=
  ∀ (s : State) (bytes : List Byte),
    (bytes.length < 9 → exec (.decodeResponse bytes) s = .next { s with result := some (.error .frameTooShort) }) ∧
    (9 ≤ bytes.length → bytes.length ≤ 16 →
      ∃ id, (∀ b, bytes[s.cfg.respReqidOffset]? = some b → id = b) ∧
        exec (.decodeResponse bytes) s = .next { s with result := some (.fields
          { zoneId := bytes.getD 4 0
            requestId := id
            power := BitVec.ofNat 1 ((bytes.getD 1 0).toNat % 2)
            modeBits := BitVec.ofNat 3 ((bytes.getD 6 0).toNat % 8)
            swingBit := BitVec.ofNat 1 ((bytes.getD 6 0).toNat / 8 % 2)
            fanBits := BitVec.ofNat 3 ((bytes.getD 6 0).toNat / 16 % 8)
            targetRaw := BitVec.ofNat 4 ((bytes.getD 7 0).toNat % 16)
            curRaw := bytes.getD 8 0 }) }) ∧
    (16 < bytes.length → exec (.decodeResponse bytes) s = .refused .byteCount)

/-! ### ZoneStateCodec -/

/-- ENC_MODE and DEC_MODE (40_codec.md R127, R128): on encode Off keeps the previous mode, and vmode 6 and 7 are refused; on
decode power 0 is Off whatever the mode bits (R138 (e)), and modes 5 to 7 with power 1 are Off with the error. -/
def Obligations.ModeResults : Prop :=
  ∀ (s : State),
    (∀ vmode prev : BitVec 3, prev.toNat ≤ 4 → exec (.encMode vmode prev) s =
      if 5 < vmode.toNat then .refused .hostVmode
      else if vmode = 5 then .next { s with result := some (.encMode 0 prev) }
      else .next { s with result := some (.encMode 1 vmode) }) ∧
    (∀ (power : Bit) (mode : BitVec 3), exec (.decMode power mode) s = .next { s with result := some (
      if power = 0 then .decMode 5 none
      else if mode.toNat ≤ 4 then .decMode mode none
      else .decMode 5 (some (.invalidModeOrFanOrSwingValue .mode))) })

/-- ENC_FAN, DEC_FAN, ENC_SWING and DEC_SWING (40_codec.md R129 to R132): Auto becomes Low; fan bits 3 to 7 leave the fan
unchanged, with the error; swing is its own code both ways. -/
def Obligations.FanAndSwingResults : Prop :=
  ∀ (s : State),
    (∀ fan : BitVec 2, exec (.encFan fan) s = .next { s with result := some (.encFan (if fan = 3 then 0 else fan)) }) ∧
    (∀ bits : BitVec 3, exec (.decFan bits) s = .next { s with result := some (
      if bits.toNat ≤ 2 then .decFan (some (BitVec.ofNat 2 bits.toNat)) none
      else .decFan none (some (.invalidModeOrFanOrSwingValue .fan))) }) ∧
    (∀ swing : Bit, exec (.encSwing swing) s = .next { s with result := some (.encSwing swing) }) ∧
    (∀ bit : Bit, exec (.decSwing bit) s = .next { s with result := some (.decSwing bit) })

/-- PACK_STATUS and PACK_MSF (40_codec.md R133, R134): the power bit with the write flag's mask for a write; `m + 8*s + 16*f`. -/
def Obligations.PackedByteResults : Prop :=
  ∀ (s : State),
    (∀ write power : Bit, exec (.packStatus write power) s = .next { s with result := some (.status
      (BitVec.ofNat 8 power.toNat ||| (if write = 1 then s.cfg.writeFlagMask else 0))) }) ∧
    (∀ (mode : BitVec 3) (swing : Bit) (fan : BitVec 2), mode.toNat ≤ 4 → fan.toNat ≤ 2 →
      exec (.packMsf mode swing fan) s =
        .next { s with result := some (.msf (BitVec.ofNat 8 (mode.toNat + 8 * swing.toNat + 16 * fan.toNat))) })

/-- ENC_TARGET and DEC_TARGET (40_codec.md R135, R136): `target - 15`, clamped to 0..15 under CLAMP and modulo 256 under
TRUNC_BYTE; decode is the low nibble plus 15, ignores the high nibble and clamps nothing. -/
def Obligations.TargetResults : Prop :=
  ∀ (s : State),
    (∀ target : Byte, ∃ b : Byte, exec (.encTarget target) s = .next { s with result := some (.tempByte b) } ∧
      (s.cfg.tempPolicy = .clamp → (b.toNat : Int) = min (max ((target.toNat : Int) - 15) 0) 15) ∧
      (s.cfg.tempPolicy = .truncByte → (b.toNat : Int) = ((target.toNat : Int) - 15) % 256)) ∧
    (∀ tempByte : Byte,
      exec (.decTarget tempByte) s = .next { s with result := some (.target (BitVec.ofNat 8 (tempByte.toNat % 16 + 15))) })

/-- DEC_CURTEMP (40_codec.md R137): the s8 nearest to `(4480 - 25*b)/64`, a half rounded away from zero; it lies in -30..70. -/
def Obligations.DecCurtempRounds : Prop :=
  ∀ (s : State) (b : Byte),
    ∃ t : Byte, exec (.decCurtemp b) s = .next { s with result := some (.curTemp t) } ∧
      (64 * t.toInt - (4480 - 25 * (b.toNat : Int))).natAbs ≤ 32 ∧
      ((64 * t.toInt - (4480 - 25 * (b.toNat : Int))).natAbs = 32 →
        (4480 - 25 * (b.toNat : Int)).natAbs < (64 * t.toInt).natAbs) ∧
      -30 ≤ t.toInt ∧ t.toInt ≤ 70

/-- CORRELATE (41_controller.md R188): the last zone, and the last id or the one before it modulo 256. -/
def Obligations.CorrelateResult : Prop :=
  ∀ (s : State) (respZone respId lastZone lastId : Byte),
    exec (.correlate respZone respId lastZone lastId) s = .next { s with result := some (.correlated
      (decide (respZone = lastZone ∧ (respId = lastId ∨ (respId.toNat + 1) % 256 = lastId.toNat)))) }

/-- The combinational operations (30_encoding.md R101, op codes 0x10 to 0x1F) return a value and change nothing else: no
register, no event (40_codec.md R120). -/
def Obligations.CombinationalOperationsArePure : Prop :=
  ∀ (c : Config) (i : Instr) (op : Byte) (operands : List Byte) (s t : State),
    encode c i = ⟨.op, op :: operands⟩ → 16 ≤ op.toNat → exec i s = .next t →
    ∃ r, t = { s with result := some r }

/-! ### Codec laws (40_codec.md R138, R139) -/

/-- Every request that ENCODE_REQUEST returns passes VERIFY_CHECKSUM (R138 (a)). -/
def Obligations.EncodedRequestsVerify : Prop :=
  ∀ (s t u : State) (zone reqId : Byte) (write power : Bit) (mode : BitVec 3) (swing : Bit) (fan : BitVec 2) (target : Byte)
    (f : List Byte),
    exec (.encodeRequest zone reqId write power mode swing fan target) s = .next t → t.result = some (.request f) →
    f.length = 8 ∧ exec (.verifyChecksum f) u = .next { u with result := some (.verified true) }

/-- Changing any one byte of a frame that verifies makes it fail (R138 (b)). -/
def Obligations.SingleByteChangeDetected : Prop :=
  ∀ (s : State) (bytes : List Byte) (i : Nat) (old new : Byte),
    bytes.length ≤ 16 → bytes[i]? = some old → new ≠ old →
    exec (.verifyChecksum bytes) s = .next { s with result := some (.verified true) } →
    exec (.verifyChecksum (bytes.set i new)) s = .next { s with result := some (.verified false) }

/-- The checksum cannot see a reordering of the bytes before the last (R139). -/
def Obligations.ReorderingUndetected : Prop :=
  ∀ (s : State) (body body' : List Byte) (cs : Byte), body.Perm body' →
    exec (.verifyChecksum (body ++ [cs])) s = exec (.verifyChecksum (body' ++ [cs])) s

/-- With power on, unpacking PACK_MSF gives back mode, swing and fan (R138 (c)); targets 15 to 30 encode as `target - 15` under
both policies and decode back (R138 (d)). -/
def Obligations.StateCodecRoundTrip : Prop :=
  ∀ (s : State),
    (∀ (mode : BitVec 3) (swing : Bit) (fan : BitVec 2), mode.toNat ≤ 4 → fan.toNat ≤ 2 →
      ∃ b : Byte, exec (.packMsf mode swing fan) s = .next { s with result := some (.msf b) } ∧
        exec (.decMode 1 (b.extractLsb' 0 3)) s = .next { s with result := some (.decMode mode none) } ∧
        exec (.decSwing (b.extractLsb' 3 1)) s = .next { s with result := some (.decSwing swing) } ∧
        exec (.decFan (b.extractLsb' 4 3)) s = .next { s with result := some (.decFan (some fan) none) }) ∧
    (∀ target : Byte, 15 ≤ target.toNat → target.toNat ≤ 30 →
      exec (.encTarget target) s = .next { s with result := some (.tempByte (target - 15)) } ∧
      exec (.decTarget (target - 15)) s = .next { s with result := some (.target target) })

/-! ### TICK -/

/-- In Idle, the pending active slot of least index is written: one request with the write flag inside the direction bracket,
the deadline armed, PEND cleared; RR and POLL_TS are kept (41_controller.md R173, R174, R176, R177). -/
def Obligations.TickWritesLeastPendingSlot : Prop :=
  ∀ (s : State) (now : Time) (k : Nat) (sl : Slot),
    s.st = .idle → s.slots[k]? = some sl → sl.pend = true → 0 ≤ sl.zid → sl.zid ≤ 255 →
    (∀ j sl', j < k → s.slots[j]? = some sl' → ¬ (sl'.pend = true ∧ 0 ≤ sl'.zid ∧ sl'.zid ≤ 255)) →
    exec (.tick now) s = .next { s with
      run := true
      dir := false
      trace := s.trace ++ transmission (encodeRequest s.cfg (BitVec.ofInt 8 sl.zid) s.seq 1 sl.power sl.mode sl.swing sl.fan
        sl.target)
      lastId := s.seq
      lastZone := BitVec.ofInt 8 sl.zid
      seq := s.seq + 1
      txTs := now
      rxbuf := []
      rxcnt := 0
      st := .awaitResponse
      slots := s.slots.set k { sl with pend := false } }

/-- In Idle with nothing to write and the poll interval elapsed, RR advances and POLL_TS is stamped; an active slot is sent a
read request, which leaves its registers alone, and an inactive one none (41_controller.md R173, R174, R176, R179). N is at most
NZ_MAX (00_scope.md R7), so that RR holds every slot index in its width (10_state.md R29). -/
def Obligations.TickPollsNextSlot : Prop :=
  ∀ (s : State) (now : Time) (sl : Slot),
    s.slots.length ≤ s.cfg.nzMax → s.st = .idle → ¬ WritePending s → s.cfg.pollInterval.toNat ≤ (now - s.pollTs).toNat →
    s.slots[(s.rr + 1) % s.slots.length]? = some sl →
    exec (.tick now) s =
      if 0 ≤ sl.zid ∧ sl.zid ≤ 255 then .next { s with
        run := true
        dir := false
        trace := s.trace ++ transmission (encodeRequest s.cfg (BitVec.ofInt 8 sl.zid) s.seq 0 sl.power sl.mode sl.swing
          sl.fan sl.target)
        lastId := s.seq
        lastZone := BitVec.ofInt 8 sl.zid
        seq := s.seq + 1
        txTs := now
        rr := (s.rr + 1) % s.slots.length
        pollTs := now
        rxbuf := []
        rxcnt := 0
        st := .awaitResponse }
      else .next { s with run := true, rr := (s.rr + 1) % s.slots.length, pollTs := now }

/-- In Idle with nothing to write, and no slots or the poll interval not elapsed, a TICK changes only RUN (41_controller.md
R180). -/
def Obligations.IdleTickOtherwiseSetsRunOnly : Prop :=
  ∀ (s : State) (now : Time),
    s.st = .idle → ¬ WritePending s → s.slots = [] ∨ (now - s.pollTs).toNat < s.cfg.pollInterval.toNat →
    exec (.tick now) s = .next { s with run := true }

/-- In AwaitResponse or Receiving, a TICK raises ReceiveTimeout and ends the cycle once the deadline has elapsed, and changes
only RUN before that (41_controller.md R181, R193). -/
def Obligations.TickChecksReceiveDeadline : Prop :=
  ∀ (s : State) (now : Time), s.st ≠ .idle →
    exec (.tick now) s =
      if s.cfg.rxTimeout.toNat ≤ (now - s.txTs).toNat then .next { abandoned s 4 with run := true }
      else .next { s with run := true }

/-- No permanent stall: the tick that finds the deadline elapsed leaves Idle, and the very next tick sends the write of a slot
that was pending and active: the request with the write flag, its zone as LAST_ZONE, the deadline armed anew and its PEND
cleared (41_controller.md R197). -/
def Obligations.TimeoutFreesTheBus : Prop :=
  ∀ (s : State) (now now' : Time),
    s.st ≠ .idle → s.cfg.rxTimeout.toNat ≤ (now - s.txTs).toNat →
    ∃ t, exec (.tick now) s = .next t ∧ t.st = .idle ∧
      (WritePending s → ∃ (u : State) (k : Nat) (sl : Slot), exec (.tick now') t = .next u ∧
        s.slots[k]? = some sl ∧ sl.pend = true ∧ 0 ≤ sl.zid ∧ sl.zid ≤ 255 ∧
        u.trace = t.trace ++ transmission (encodeRequest s.cfg (BitVec.ofInt 8 sl.zid) s.seq 1 sl.power sl.mode sl.swing sl.fan
          sl.target) ∧
        u.st = .awaitResponse ∧ u.txTs = now' ∧ u.lastZone = BitVec.ofInt 8 sl.zid ∧
        u.slots[k]? = some { sl with pend := false })

/-! ### RX_BYTE -/

/-- A byte in Idle is discarded, and a byte other than 0x10 in AwaitResponse is noise: nothing changes (41_controller.md R183,
R184). -/
def Obligations.NoiseBytesDiscarded : Prop :=
  ∀ (s : State) (b : Byte), s.st = .idle ∨ (s.st = .awaitResponse ∧ b ≠ 0x10) → exec (.rxByte b) s = .next s

/-- In AwaitResponse 0x10 starts a frame: it is stored at offset 0, every other offset reads as before, and only RXCNT and ST
change with it (41_controller.md R185). -/
def Obligations.StartByteStartsFrame : Prop :=
  ∀ (s : State), s.st = .awaitResponse → Memory.wf s.rxbuf = true →
    ∃ m, exec (.rxByte 0x10) s = .next { s with rxbuf := m, rxcnt := 1, st := .receiving } ∧
      bufGet m 0 = 0x10 ∧ ∀ a, a ≠ 0 → bufGet m a = bufGet s.rxbuf a

/-- In Receiving a byte before the sixteenth, 0x10 among them, is stored at offset RXCNT; every other offset reads as before and
only RXCNT changes with it (41_controller.md R186). -/
def Obligations.ReceivedByteAppended : Prop :=
  ∀ (s : State) (b : Byte), s.st = .receiving → Memory.wf s.rxbuf = true → s.rxcnt.toNat < 15 →
    ∃ m, exec (.rxByte b) s = .next { s with rxbuf := m, rxcnt := BitVec.ofNat 5 (s.rxcnt.toNat + 1) } ∧
      bufGet m s.rxcnt.toNat = b ∧ ∀ a, a ≠ s.rxcnt.toNat → bufGet m a = bufGet s.rxbuf a

/-- A buffer offset above 15, which no rule forms (20_memory.md R60), faults; that it faults is the model's reading
(notes/assumptions/14.md). -/
def Obligations.OffsetOutsideBufferFaults : Prop :=
  ∀ (s : State) (b : Byte), s.st = .receiving → 16 ≤ s.rxcnt.toNat →
    exec (.rxByte b) s = .fault (.bufferOffset s.rxcnt.toNat)

/-- A sixteenth byte that is not the checksum of the fifteen before it raises ChecksumMismatch and ends the cycle
(41_controller.md R187, 60_exceptions.md R262). -/
def Obligations.ChecksumMismatchEndsCycle : Prop :=
  ∀ (s : State) (b : Byte), s.st = .receiving → s.rxcnt = 15 → Memory.wf s.rxbuf = true →
    ¬ ChecksumGood (completedFrame s b) →
    exec (.rxByte b) s = .next (abandoned s 1)

/-- A frame with a good checksum that does not answer the outstanding request raises UncorrelatedResponse and ends the cycle
(41_controller.md R187, R188). -/
def Obligations.UncorrelatedFrameEndsCycle : Prop :=
  ∀ (s : State) (b : Byte), s.st = .receiving → s.rxcnt = 15 → Memory.wf s.rxbuf = true → s.cfg.respReqidOffset < 16 →
    ChecksumGood (completedFrame s b) → ¬ Correlated s (completedFrame s b) →
    exec (.rxByte b) s = .next (abandoned s 3)

/-- A correlated frame whose zone id no active slot has raises UnknownZone and ends the cycle (41_controller.md R187, R190). -/
def Obligations.UnknownZoneEndsCycle : Prop :=
  ∀ (s : State) (b : Byte), s.st = .receiving → s.rxcnt = 15 → Memory.wf s.rxbuf = true →
    ChecksumGood (completedFrame s b) → Correlated s (completedFrame s b) → ¬ ActiveZone s s.lastZone →
    exec (.rxByte b) s = .next (abandoned s 5)

/-- A good, correlated frame is dispatched to the one active slot with its zone id: the field errors, the slot's registers, at
most one PUBLISH, and the end of the cycle (41_controller.md R187, R191, R192, R193, R194). -/
def Obligations.CorrelatedFrameDispatched : Prop :=
  ∀ (s : State) (b : Byte) (k : Nat) (sl : Slot), s.st = .receiving → s.rxcnt = 15 → Memory.wf s.rxbuf = true →
    configRefused s = false → ChecksumGood (completedFrame s b) → Correlated s (completedFrame s b) →
    s.slots[k]? = some sl → sl.zid = (s.lastZone.toNat : Int) →
    exec (.rxByte b) s = .next (dispatched s k (completedFrame s b) sl)

/-- With DECODE_OVERWRITES_PENDING false, no received byte changes the commanded registers of a pending slot, nor its PEND
(41_controller.md R194). -/
def Obligations.PendingSlotKeepsCommandedState : Prop :=
  ∀ (s t : State) (b : Byte) (k : Nat) (sl : Slot), s.cfg.decodeOverwritesPending = false →
    s.slots[k]? = some sl → sl.pend = true → exec (.rxByte b) s = .next t →
    ∃ cur valid, t.slots[k]? = some { sl with cur := cur, curValid := valid }

/-! ### DRIVE and the wire frames -/

/-- Stepping through the records that DRIVE expands to is performing DRIVE (30_encoding.md R105; the presented input is the
model's, notes/assumptions/3.md). DRIVE also records that no byte stayed in the transport: the field `held`, which no operation
reads, is the model's (notes/assumptions/6.md). -/
def Obligations.DriveIsItsExpansion : Prop :=
  ∀ (s : State) (now : Time) (bytes : List Byte) (rest : List Record),
    configRefused s = false → s.input = driveRecords s.cfg now bytes ++ rest → bytes.length ≤ s.cfg.rxMax →
    andThen (runSteps (bytes.length + 1) s) (fun t => .next { t with held := [] }) =
      exec (.drive now bytes) { s with input := rest }

/-- DRIVE performs RX_BYTE for the first RX_MAX bytes and then TICK, and leaves the bytes beyond them in the transport
(30_encoding.md R105; where the model keeps them is notes/assumptions/6.md). -/
def Obligations.DriveCompletes : Prop :=
  ∀ (s : State) (now : Time) (bytes : List Byte), Inv s →
    ∃ u v, execAll ((bytes.take s.cfg.rxMax).map .rxByte) s = .next u ∧ exec (.tick now) u = .next v ∧
      exec (.drive now bytes) s = .next { v with held := bytes.drop s.cfg.rxMax }

/-- A DRIVE whose first RX_MAX bytes complete the outstanding frame raises no ReceiveTimeout, whatever its `now`: the bytes come
before the deadline is judged (60_exceptions.md R259). The frame is complete when those bytes leave ST in Idle; and in
Receiving they do so when they reach offset 15 of the frame. -/
def Obligations.FrameCompletedBeforeDeadlineKept : Prop :=
  (∀ (s u : State) (now : Time) (bytes : List Byte), s.st ≠ .idle →
    execAll ((bytes.take s.cfg.rxMax).map .rxByte) s = .next u → u.st = .idle →
    ∃ t ev, exec (.drive now bytes) s = .next t ∧ t.trace = s.trace ++ ev ∧ Event.err 4 0 ∉ ev) ∧
  (∀ (s : State) (bytes : List Byte), s.st = .receiving → s.rxcnt.toNat ≤ 15 →
    16 ≤ s.rxcnt.toNat + (bytes.take s.cfg.rxMax).length →
    ∃ u, execAll ((bytes.take s.cfg.rxMax).map .rxByte) s = .next u ∧ u.st = .idle)

/-- FRAME_REQ has the eight bytes of 30_encoding.md R81 as its value and no other effect. That it has a value and no effect on
the bus is the model's choice (notes/assumptions/7.md). -/
def Obligations.FrameReqBytes : Prop :=
  ∀ (s : State) (reqId zone : Byte) (write power : Bit) (fan : BitVec 2) (swing : Bit) (mode : BitVec 3) (temp : Byte),
    let body := [s.cfg.hdr0, s.cfg.hdr1, reqId, zone,
      BitVec.ofNat 8 power.toNat ||| (if write = 1 then s.cfg.writeFlagMask else 0),
      BitVec.ofNat 8 (mode.toNat + 8 * swing.toNat + 16 * fan.toNat), temp]
    exec (.frameReq reqId zone write power fan swing mode temp) s =
      if mode.toNat ≤ 4 ∧ fan.toNat ≤ 2 ∧ (s.cfg.tempPolicy = .clamp → temp.toNat ≤ 15) then
        .next { s with result := some (.request (body ++ [sumXor body])) }
      else .refused .operandRange

/-- FRAME_RESP in AwaitResponse, with a cleared buffer: the frame is received byte by byte and, good and correlated, is
dispatched to its slot. That the row is received as sixteen RX_BYTE is the model's choice (notes/assumptions/8.md). -/
def Obligations.FrameRespDispatched : Prop :=
  ∀ (s : State) (frame : List Byte) (k : Nat) (sl : Slot), s.st = .awaitResponse → s.rxbuf = [] →
    configRefused s = false → frame.length = 16 → frame.head? = some 0x10 →
    ChecksumGood frame → Correlated s frame → s.slots[k]? = some sl → sl.zid = (s.lastZone.toNat : Int) →
    exec (.frameResp frame) s = .next (dispatched s k frame sl)

/-! ### Host operations and RESET -/

/-- SET_ZONE (42_host_interface.md R221) and REQUEST_CHANGE, its other spelling (30_encoding.md R106): the commanded registers
and PEND; k outside the registry and vmode 6 and 7 are refused. -/
def Obligations.SetZoneResult : Prop :=
  ∀ (s : State) (k : Byte) (vmode : BitVec 3) (fan : BitVec 2) (swing : Bit) (target : Byte) (i : Instr),
    i = .setZone k vmode fan swing target ∨ i = .requestChange k vmode fan swing target →
    (s.slots.length ≤ k.toNat → ∃ r, exec i s = .refused r ∧ (vmode.toNat ≤ 5 → r = .slotOutOfRange)) ∧
    ∀ sl, s.slots[k.toNat]? = some sl →
      exec i s =
        if 5 < vmode.toNat then .refused .hostVmode
        else .next { s with slots := s.slots.set k.toNat { sl with
          power := if vmode = 5 then 0 else 1
          mode := if vmode = 5 then sl.mode else vmode
          fan := if fan = 3 then 0 else fan
          swing := swing
          target := target
          pend := true } }

/-- SEED_ZONE (42_host_interface.md R222): the commanded registers and not PEND, before the first TICK only. Each of its three
grounds is refused; where one holds alone, the refusal names it. -/
def Obligations.SeedZoneResult : Prop :=
  ∀ (s : State) (k : Byte) (vmode : BitVec 3) (fan : BitVec 2) (swing : Bit) (target : Byte),
    (s.slots.length ≤ k.toNat ∨ 5 < vmode.toNat ∨ s.run = true →
      ∃ r, exec (.seedZone k vmode fan swing target) s = .refused r ∧
        (vmode.toNat ≤ 5 → s.run = false → r = .slotOutOfRange) ∧
        (k.toNat < s.slots.length → s.run = false → r = .hostVmode) ∧
        (k.toNat < s.slots.length → vmode.toNat ≤ 5 → r = .seedAfterTick)) ∧
    ∀ sl, s.slots[k.toNat]? = some sl → vmode.toNat ≤ 5 → s.run = false →
      exec (.seedZone k vmode fan swing target) s =
        .next { s with slots := s.slots.set k.toNat { sl with
          power := if vmode = 5 then 0 else 1
          mode := if vmode = 5 then sl.mode else vmode
          fan := if fan = 3 then 0 else fan
          swing := swing
          target := target } }

/-- GET_ZONE (42_host_interface.md R223): one GET_RESULT and nothing else; Off whenever POWER is 0, `unknown` before the first
dispatched response; k outside the registry is refused. -/
def Obligations.GetZoneResult : Prop :=
  ∀ (s : State) (k : Byte),
    (s.slots.length ≤ k.toNat → exec (.getZone k) s = .refused .slotOutOfRange) ∧
    ∀ sl, s.slots[k.toNat]? = some sl →
      exec (.getZone k) s = .next { s with trace := s.trace ++ [.getResult k.toNat (if sl.power = 0 then 5 else sl.mode) sl.fan
        sl.swing sl.target (if sl.curValid = true then some sl.cur else none) sl.pend] }

/-- Two identical SET_ZONE operations leave the same state as one (20_memory.md R65). -/
def Obligations.SetZoneIdempotent : Prop :=
  ∀ (s t : State) (k : Byte) (vmode : BitVec 3) (fan : BitVec 2) (swing : Bit) (target : Byte),
    exec (.setZone k vmode fan swing target) s = .next t → exec (.setZone k vmode fan swing target) t = .next t

/-- RESET (70_reset_and_hazards.md R290): every register at its reset value, the configuration and the output trace kept; under
a configuration that 00_scope.md R8 refuses there is no RESET. That RESET also keeps `input`, `result` and `held` is the model's
choice (notes/assumptions/16.md). N is at most NZ_MAX (00_scope.md R7). -/
def Obligations.ResetResult : Prop :=
  ∀ (s : State), s.slots.length ≤ s.cfg.nzMax →
    exec .reset s =
      if configRefused s = true then .refused .configuration
      else .next { s with
        st := .idle
        rxbuf := []
        rxcnt := 0
        seq := 0
        lastId := 0
        lastZone := 0
        rr := if 1 ≤ s.slots.length then s.slots.length - 1 else 0
        pollTs := 0
        txTs := 0
        dir := false
        run := false
        slots := s.slots.map fun sl =>
          { zid := sl.zid, power := 0, mode := 0, fan := 0, swing := 0, target := s.cfg.minTemp, cur := 0,
            curValid := false, pend := false } }

/-! ### Whole-machine rules -/

/-- The transition table of ST (41_controller.md R189), over every operation but DRIVE and FRAME_RESP, which are sequences of
these. N is at most NZ_MAX (00_scope.md R7). -/
def Obligations.ControllerTransitions : Prop :=
  ∀ (i : Instr) (s t : State), s.slots.length ≤ s.cfg.nzMax → (∀ now bytes, i ≠ .drive now bytes) →
    (∀ bytes, i ≠ .frameResp bytes) → exec i s = .next t →
    match i with
    | .reset => t.st = .idle
    | .tick now =>
      if s.st = .idle then
        (WritePending s → t.st = .awaitResponse) ∧
        (¬ WritePending s → s.cfg.pollInterval.toNat ≤ (now - s.pollTs).toNat →
          ∀ sl, s.slots[(s.rr + 1) % s.slots.length]? = some sl →
            (0 ≤ sl.zid ∧ sl.zid ≤ 255 → t.st = .awaitResponse) ∧ (¬ (0 ≤ sl.zid ∧ sl.zid ≤ 255) → t.st = .idle)) ∧
        (¬ WritePending s → s.slots = [] ∨ (now - s.pollTs).toNat < s.cfg.pollInterval.toNat → t.st = .idle)
      else t.st = if s.cfg.rxTimeout.toNat ≤ (now - s.txTs).toNat then .idle else s.st
    | .rxByte b =>
      t.st = match s.st with
        | .idle => .idle
        | .awaitResponse => if b = 0x10 then .receiving else .awaitResponse
        | .receiving => if s.rxcnt.toNat + 1 = 16 then .idle else .receiving
    | _ => t.st = s.st

/-- RR and POLL_TS change only in a round-robin step, which advances RR by one modulo N and stamps POLL_TS (10_state.md R22, R29,
R30), but for RESET. DRIVE is a sequence of the operations this speaks of. N is at most NZ_MAX (00_scope.md R7). -/
def Obligations.RoundRobinMovesOnlyByPollStep : Prop :=
  ∀ (i : Instr) (s t : State), s.slots.length ≤ s.cfg.nzMax → i ≠ .reset → (∀ now bytes, i ≠ .drive now bytes) →
    exec i s = .next t →
    (t.rr = s.rr ∧ t.pollTs = s.pollTs) ∨
    ∃ now, i = .tick now ∧ s.st = .idle ∧ ¬ WritePending s ∧ s.cfg.pollInterval.toNat ≤ (now - s.pollTs).toNat ∧
      s.slots ≠ [] ∧ t.rr = (s.rr + 1) % s.slots.length ∧ t.pollTs = now

/-- Round-robin fairness: over any sequence of operations without RESET, writes, received bytes and DRIVE among them, the j-th
round-robin step lands on slot `RR + 1 + j` modulo N (41_controller.md R196). N is at most NZ_MAX (00_scope.md R7). -/
def Obligations.RoundRobinOrder : Prop :=
  ∀ (ops : List Instr) (s : State) (j k : Nat), s.slots.length ≤ s.cfg.nzMax → (∀ i ∈ ops, i ≠ .reset) →
    (pollOrder ops s)[j]? = some k → k = (s.rr + 1 + j) % s.slots.length

/-- SEQ advances by one exactly when a TICK in Idle sends a request, which carries the old SEQ as its request id and as LAST_ID,
and the id of an active slot as its zone and as LAST_ZONE; otherwise nothing is transmitted and all four keep their values
(10_state.md R26, R27, R28, R31), but for RESET. DRIVE, which is left out, is a sequence of the operations this speaks of. -/
def Obligations.SequenceAdvancesOnlyByTransmission : Prop :=
  ∀ (i : Instr) (s t : State), i ≠ .reset → (∀ now bytes, i ≠ .drive now bytes) → exec i s = .next t →
    (t.seq = s.seq ∧ t.lastId = s.lastId ∧ t.lastZone = s.lastZone ∧ t.txTs = s.txTs ∧
      ∃ ev, t.trace = s.trace ++ ev ∧ txCount ev = 0) ∨
    ∃ now f, i = .tick now ∧ s.st = .idle ∧ t.st = .awaitResponse ∧ t.trace = s.trace ++ transmission f ∧ f.length = 8 ∧
      f[2]? = some s.seq ∧ f[3]? = some t.lastZone ∧
      t.seq = s.seq + 1 ∧ t.lastId = s.seq ∧ t.txTs = now ∧ ActiveZone s t.lastZone

/-- The single-writer, single-clearer contract of PEND (10_state.md R42, 20_memory.md R73): only a state-change request on the
slot sets it, and only RESET or a TICK, when it sends that slot's request, clears it (DRIVE contains a TICK). -/
def Obligations.PendSingleWriterSingleClearer : Prop :=
  ∀ (i : Instr) (s t : State) (k : Nat) (sl sl' : Slot),
    exec i s = .next t → s.slots[k]? = some sl → t.slots[k]? = some sl' →
    (sl.pend = false → sl'.pend = true →
      ∃ kb vmode fan swing target, kb.toNat = k ∧
        (i = .setZone kb vmode fan swing target ∨ i = .requestChange kb vmode fan swing target)) ∧
    (sl.pend = true → sl'.pend = false →
      i = .reset ∨ (∃ now bytes, i = .drive now bytes) ∨
      ∃ now, i = .tick now ∧ s.st = .idle ∧ t.st = .awaitResponse ∧ 0 ≤ sl.zid ∧ sl.zid ≤ 255 ∧
        t.lastZone = BitVec.ofInt 8 sl.zid)

/-- No operation writes the configuration: neither the parameters nor N nor any zone id (10_state.md R44). -/
def Obligations.ConfigurationNeverWritten : Prop :=
  ∀ (i : Instr) (s t : State), exec i s = .next t → t.cfg = s.cfg ∧ t.slots.map (·.zid) = s.slots.map (·.zid)

/-- CUR and CUR_VALID of a slot change only by the byte that completes a frame, or by RESET (10_state.md R41); DRIVE and
FRAME_RESP are sequences with such a byte. That a completed frame which is bad or uncorrelated, or has no slot, changes no slot
is said by ChecksumMismatchEndsCycle, UncorrelatedFrameEndsCycle and UnknownZoneEndsCycle. -/
def Obligations.CurrentTemperatureOnlyByCompletedFrame : Prop :=
  ∀ (i : Instr) (s t : State) (k : Nat) (sl sl' : Slot),
    exec i s = .next t → s.slots[k]? = some sl → t.slots[k]? = some sl' → (sl'.cur, sl'.curValid) ≠ (sl.cur, sl.curValid) →
    i = .reset ∨ (∃ now bytes, i = .drive now bytes) ∨ (∃ bytes, i = .frameResp bytes) ∨
    ∃ b, i = .rxByte b ∧ s.st = .receiving ∧ s.rxcnt = 15 ∧ sl'.curValid = true ∧ -30 ≤ sl'.cur.toInt ∧ sl'.cur.toInt ≤ 70

/-- Bounded work: every operation only appends to the trace; it transmits nothing or one request of eight bytes, and only a TICK
(in a DRIVE or alone) transmits (41_controller.md R198). -/
def Obligations.TraceGrowsByBoundedTransmission : Prop :=
  ∀ (i : Instr) (s t : State), exec i s = .next t →
    ∃ ev, t.trace = s.trace ++ ev ∧ (txCount ev = 0 ∨ txCount ev = 8) ∧
      (txCount ev = 8 → ∃ now, i = .tick now ∨ ∃ bytes, i = .drive now bytes)

/-! ### Invariants of every step -/

/-- The invariants of 10_state.md R46, and that RR is a slot index and fits its width (R29), are kept by every step. -/
def Obligations.StepKeepsControllerInvariants : Prop :=
  ∀ (s t : State), Inv s → step s = .next t → Inv t

/-- The invariants hold right after reset, under every configuration that 00_scope.md R8 accepts with N at most NZ_MAX (R7). -/
def Obligations.ResetMeetsControllerInvariants : Prop :=
  ∀ (c : Config) (zids : List Int), zids.length ≤ c.nzMax → configRefused (State.resetOf c zids) = false →
    Inv (State.resetOf c zids)

/-- Every step keeps the trace a sequence of whole direction brackets: DIR_ASSERT, eight TX_BYTE, FLUSH, DIR_DEASSERT, and no
transmitted byte outside them (20_memory.md R71, R72). -/
def Obligations.StepKeepsDirectionBracket : Prop :=
  ∀ (s t : State), Bracketed s.trace → step s = .next t → Bracketed t.trace

/-- From a state with the invariants no operation faults: no rule forms a buffer offset outside 0..15 (20_memory.md R60). -/
def Obligations.NoFaultUnderInvariants : Prop :=
  ∀ (s : State) (i : Instr) (f : Fault), Inv s → exec i s ≠ .fault f

/-- From a state with the invariants no operation raises UnknownZone (41_controller.md R190). -/
def Obligations.UnknownZoneUnreachable : Prop :=
  ∀ (i : Instr) (s t : State), Inv s → exec i s = .next t →
    ∃ ev, t.trace = s.trace ++ ev ∧ Event.err 5 0 ∉ ev
end

