-- ==== Sys2Proof/Laws/Buffer.lean ====
section
/-! SUPPORT. The laws of the receive buffer: a read after a write, the canonical form, and what an access can answer. -/

namespace Sys2Proof.Laws

open Sys2Proof.Machine

@[simp] theorem bufGet_nil (a : Nat) : bufGet [] a = 0 := rfl

/-- A canonical form above a bound is one above every smaller bound. -/
theorem bufSorted_mono {lo hi : Nat} {m : Memory} (h : lo ≤ hi) (hm : bufSorted hi m = true) : bufSorted lo m = true := by
  cases m with
  | nil => rfl
  | cons c m =>
    simp only [bufSorted, Bool.and_eq_true, decide_eq_true_eq] at hm ⊢
    exact ⟨⟨⟨by omega, hm.1.1.2⟩, hm.1.2⟩, hm.2⟩

/-- An offset below the bound of a canonical form has no entry. -/
theorem bufGet_below {bound a : Nat} {m : Memory} (hm : bufSorted bound m = true) (ha : a < bound) : bufGet m a = 0 := by
  induction m generalizing bound with
  | nil => rfl
  | cons c m ih =>
    simp only [bufSorted, Bool.and_eq_true, decide_eq_true_eq] at hm
    rw [bufGet, if_neg (by omega)]
    exact ih hm.2 (by omega)

/-- A write in the buffer keeps the canonical form. -/
theorem bufSorted_bufPut {bound a : Nat} {v : Byte} {m : Memory} (hm : bufSorted bound m = true) (hb : bound ≤ a)
    (ha : a < respLen) : bufSorted bound (bufPut m a v) = true := by
  induction m generalizing bound with
  | nil => by_cases hv : v = bufDefault <;> simp [bufPut, bufSorted, hv, hb, ha]
  | cons c m ih =>
    have hm' := hm
    simp only [bufSorted, Bool.and_eq_true, decide_eq_true_eq, bne_iff_ne, ne_eq] at hm'
    obtain ⟨⟨⟨h1, h2⟩, h3⟩, h4⟩ := hm'
    unfold bufPut
    split
    · split
      · exact hm
      · simp_all [bufSorted]
    · split
      · split
        · exact bufSorted_mono (by omega) h4
        · simp_all [bufSorted]
      · simp only [bufSorted, Bool.and_eq_true, decide_eq_true_eq, bne_iff_ne, ne_eq]
        exact ⟨⟨⟨h1, h2⟩, h3⟩, ih h4 (by omega)⟩

/-- What a canonical buffer reads after a write: the written byte there, and what it read before everywhere else. -/
theorem bufGet_bufPut {bound : Nat} {m : Memory} (hm : bufSorted bound m = true) (a : Nat) (v : Byte) (x : Nat) :
    bufGet (bufPut m a v) x = if x = a then v else bufGet m x := by
  induction m generalizing bound with
  | nil =>
    unfold bufPut
    split
    · next hv => simp [hv, bufDefault]
    · simp only [bufGet, bufDefault]
      split_ifs <;> first | rfl | omega
  | cons c m ih =>
    simp only [bufSorted, Bool.and_eq_true, decide_eq_true_eq] at hm
    have hbelow : ∀ y, y ≤ c.1 → bufGet m y = 0 := fun y h => bufGet_below hm.2 (by omega)
    have ih := ih hm.2
    unfold bufPut
    split
    · next hlt =>
      split
      · next hv =>
        split_ifs with hx
        · subst hx
          rw [bufGet, if_neg (by omega), hbelow x (by omega), hv]
          rfl
        · rfl
      · rw [bufGet]
        split_ifs <;> first | rfl | omega
    · split
      · next heq =>
        split
        · next hv =>
          by_cases hx : x = a
          · rw [if_pos hx, hbelow x (by omega), hv]
            rfl
          · rw [if_neg hx, bufGet, if_neg (by omega)]
        · rw [bufGet, bufGet]
          split_ifs <;> first | rfl | omega
      · rw [bufGet, bufGet, ih]
        split_ifs <;> first | rfl | omega

/-- A write inside the buffer answers the written buffer. -/
theorem memWrite_eq_ok {a : Nat} (v : Byte) (m : Memory) (ha : a < 16) : memWrite a v m = .ok (bufPut m a v) := by
  simp [memWrite, bufOffsetOk, respLen, ha]

/-- A write outside the buffer faults. -/
theorem memWrite_eq_error {a : Nat} (v : Byte) (m : Memory) (ha : 16 ≤ a) : memWrite a v m = .error (.bufferOffset a) := by
  simp [memWrite, bufOffsetOk, respLen, Nat.not_lt.2 ha]

/-- Everything a write that answers a buffer does: the offset is inside, the byte is there, every other offset reads as before,
and the canonical form is kept. -/
theorem memWrite_spec {a : Nat} {v : Byte} {m m' : Memory} (hm : Memory.wf m = true) (h : memWrite a v m = .ok m') :
    a < 16 ∧ bufGet m' a = v ∧ (∀ x, x ≠ a → bufGet m' x = bufGet m x) ∧ Memory.wf m' = true := by
  by_cases ha : a < 16
  · rw [memWrite_eq_ok v m ha] at h
    cases h
    refine ⟨ha, ?_, fun x hx => ?_, bufSorted_bufPut hm (Nat.zero_le _) ha⟩
    · rw [bufGet_bufPut hm, if_pos rfl]
    · rw [bufGet_bufPut hm, if_neg hx]
  · rw [memWrite_eq_error v m (by omega)] at h
    cases h

/-- Everything a read that answers a byte does. -/
theorem memRead_spec {a : Nat} {v : Byte} {m : Memory} (h : memRead a m = .ok v) : a < 16 ∧ bufGet m a = v := by
  unfold memRead bufOffsetOk respLen at h
  split at h
  · cases h
    simp_all
  · cases h

@[simp] theorem memory_wf_nil : Memory.wf [] = true := rfl

theorem bufBytes_eq (m : Memory) : bufBytes m = (List.range 16).map (bufGet m) := rfl

@[simp] theorem bufBytes_length (m : Memory) : (bufBytes m).length = 16 := by simp [bufBytes_eq]

/-- Writing offset 15 completes the bytes that the first fifteen offsets hold. -/
theorem bufBytes_bufPut_last {m : Memory} (hm : Memory.wf m = true) (b : Byte) :
    bufBytes (bufPut m 15 b) = (List.range 15).map (bufGet m) ++ [b] := by
  have h := bufGet_bufPut hm 15 b
  simp [bufBytes_eq, List.range_succ, h]

end Sys2Proof.Laws
end

