-- ==== Sys2Proof/Laws/Codec.lean ====
section
/-! SUPPORT. The laws of the codec functions, in the numbers of 40_codec.md. -/

namespace Sys2Proof.Laws

open Sys2Proof.Machine

/-- The sum the checksum takes, as a number modulo 256. -/
theorem foldl_add_eq (bytes : List Byte) (a : Byte) :
    bytes.foldl (· + ·) a = BitVec.ofNat 8 (a.toNat + (bytes.map BitVec.toNat).sum) := by
  induction bytes generalizing a with
  | nil => simp
  | cons b bytes ih =>
    rw [List.foldl_cons, ih]
    apply BitVec.eq_of_toNat_eq
    simp [Nat.add_assoc]

/-- CHECKSUM as a sum modulo 256 (40_codec.md R121). -/
theorem checksum_eq (bytes : List Byte) :
    checksum bytes = BitVec.ofNat 8 (bytes.dropLast.map BitVec.toNat).sum ^^^ 0x55#8 := by
  simp [checksum, foldl_add_eq, csXor]

/-- The checksum slot is not summed. -/
theorem checksum_append_last (body : List Byte) (x y : Byte) : checksum (body ++ [x]) = checksum (body ++ [y]) := by
  simp [checksum]

theorem verifyChecksum_append (body : List Byte) (cs : Byte) :
    verifyChecksum (body ++ [cs]) = true ↔ cs = checksum (body ++ [0]) := by
  rw [verifyChecksum, checksum_append_last body cs 0]
  simp

@[simp] theorem requestFrame_length (c : Config) (z i : Byte) (w p : Bit) (m : BitVec 3) (s : Bit) (f : BitVec 2) (t : Byte) :
    (requestFrame c z i w p m s f t).length = 8 := rfl

/-- PACK_MSF in numbers (40_codec.md R134). -/
theorem packMsf_eq (mode : BitVec 3) (swing : Bit) (fan : BitVec 2) :
    packMsf mode swing fan = BitVec.ofNat 8 (mode.toNat + 8 * swing.toNat + 16 * fan.toNat) := by
  revert mode swing fan
  decide

@[simp] theorem packMsf_mode (mode : BitVec 3) (swing : Bit) (fan : BitVec 2) :
    (packMsf mode swing fan).extractLsb' 0 3 = mode := by
  revert mode swing fan
  decide

@[simp] theorem packMsf_swing (mode : BitVec 3) (swing : Bit) (fan : BitVec 2) :
    (packMsf mode swing fan).extractLsb' 3 1 = swing := by
  revert mode swing fan
  decide

@[simp] theorem packMsf_fan (mode : BitVec 3) (swing : Bit) (fan : BitVec 2) :
    (packMsf mode swing fan).extractLsb' 4 2 = fan := by
  revert mode swing fan
  decide

/-- The power bit of a status byte, where the write flag is another bit (30_encoding.md R82). -/
theorem packStatus_power {c : Config} (hm : c.writeFlagMask &&& 1 = 0) (write power : Bit) :
    (packStatus c write power).extractLsb' 0 1 = power := by
  unfold packStatus
  generalize c.writeFlagMask = mask at *
  revert mask write power
  decide

/-- The write flag of a status byte. -/
theorem packStatus_write {c : Config} (h0 : c.writeFlagMask ≠ 0) (hm : c.writeFlagMask &&& 1 = 0) (write power : Bit) :
    (if packStatus c write power &&& c.writeFlagMask = 0 then (0 : Bit) else 1) = write := by
  unfold packStatus
  generalize c.writeFlagMask = mask at *
  revert mask write power
  decide

/-- ENC_MODE answers for the six host codes, and only for them (40_codec.md R127). -/
theorem encMode_eq (vmode prev : BitVec 3) :
    encMode vmode prev =
      if 5 < vmode.toNat then none
      else some (if vmode = 5 then 0 else 1, if vmode = 5 then prev else vmode) := by
  revert vmode prev
  decide

/-! ### Fields of a byte -/

theorem extract_power (b : Byte) : b.extractLsb' 0 1 = BitVec.ofNat 1 (b.toNat % 2) := by
  revert b
  decide

theorem extract_mode (b : Byte) : b.extractLsb' 0 3 = BitVec.ofNat 3 (b.toNat % 8) := by
  revert b
  decide

theorem extract_swing (b : Byte) : b.extractLsb' 3 1 = BitVec.ofNat 1 (b.toNat / 8 % 2) := by
  revert b
  decide

theorem extract_fan (b : Byte) : b.extractLsb' 4 3 = BitVec.ofNat 3 (b.toNat / 16 % 8) := by
  revert b
  decide

theorem extract_target (b : Byte) : b.extractLsb' 0 4 = BitVec.ofNat 4 (b.toNat % 16) := by
  revert b
  decide

theorem decTarget_eq (b : Byte) : decTarget b = BitVec.ofNat 8 (b.toNat % 16 + 15) := by
  revert b
  decide

/-- The fields of DECODE_RESPONSE in numbers (40_codec.md R124). -/
theorem decodeResponse_eq (c : Config) {bytes : List Byte} (h : 9 ≤ bytes.length) :
    decodeResponse c bytes = .ok
      { zoneId := bytes.getD 4 0
        requestId := responseId c bytes
        power := BitVec.ofNat 1 ((bytes.getD 1 0).toNat % 2)
        modeBits := BitVec.ofNat 3 ((bytes.getD 6 0).toNat % 8)
        swingBit := BitVec.ofNat 1 ((bytes.getD 6 0).toNat / 8 % 2)
        fanBits := BitVec.ofNat 3 ((bytes.getD 6 0).toNat / 16 % 8)
        targetRaw := BitVec.ofNat 4 ((bytes.getD 7 0).toNat % 16)
        curRaw := bytes.getD 8 0 } := by
  rw [decodeResponse, if_neg (by simp only [minDecodeLen]; omega)]
  simp only [extract_power, extract_mode, extract_swing, extract_fan, extract_target]

theorem responseId_of_getElem? {c : Config} {bytes : List Byte} {b : Byte} (h : bytes[c.respReqidOffset]? = some b) :
    responseId c bytes = b := by simp [responseId, h]

/-- The prior id, modulo 256 (41_controller.md R188). -/
theorem eq_sub_one_iff (a b : Byte) : a = b - 1 ↔ (a.toNat + 1) % 256 = b.toNat := by
  bv_omega

theorem correlate_iff (rz ri lz li : Byte) :
    correlate rz ri lz li = true ↔ rz = lz ∧ (ri = li ∨ (ri.toNat + 1) % 256 = li.toNat) := by
  rw [correlate, Bool.and_eq_true, Bool.or_eq_true, beq_iff_eq, beq_iff_eq, beq_iff_eq, eq_sub_one_iff]

end Sys2Proof.Laws
end

