-- ==== Sys2Proof/Laws/State.lean ====
section
/-! SUPPORT. One lemma for each field of `State` after each plain update, and of `Slot` after each slot update. -/

namespace Sys2Proof.Laws

open Sys2Proof.Machine

/-! ### `emit` -/

@[simp] theorem emit_cfg (e : Event) (s : State) : (emit e s).cfg = s.cfg := rfl
@[simp] theorem emit_st (e : Event) (s : State) : (emit e s).st = s.st := rfl
@[simp] theorem emit_rxbuf (e : Event) (s : State) : (emit e s).rxbuf = s.rxbuf := rfl
@[simp] theorem emit_rxcnt (e : Event) (s : State) : (emit e s).rxcnt = s.rxcnt := rfl
@[simp] theorem emit_seq (e : Event) (s : State) : (emit e s).seq = s.seq := rfl
@[simp] theorem emit_lastId (e : Event) (s : State) : (emit e s).lastId = s.lastId := rfl
@[simp] theorem emit_lastZone (e : Event) (s : State) : (emit e s).lastZone = s.lastZone := rfl
@[simp] theorem emit_rr (e : Event) (s : State) : (emit e s).rr = s.rr := rfl
@[simp] theorem emit_pollTs (e : Event) (s : State) : (emit e s).pollTs = s.pollTs := rfl
@[simp] theorem emit_txTs (e : Event) (s : State) : (emit e s).txTs = s.txTs := rfl
@[simp] theorem emit_dir (e : Event) (s : State) : (emit e s).dir = s.dir := rfl
@[simp] theorem emit_run (e : Event) (s : State) : (emit e s).run = s.run := rfl
@[simp] theorem emit_slots (e : Event) (s : State) : (emit e s).slots = s.slots := rfl
@[simp] theorem emit_trace (e : Event) (s : State) : (emit e s).trace = s.trace ++ [e] := rfl
@[simp] theorem emit_input (e : Event) (s : State) : (emit e s).input = s.input := rfl
@[simp] theorem emit_result (e : Event) (s : State) : (emit e s).result = s.result := rfl
@[simp] theorem emit_held (e : Event) (s : State) : (emit e s).held = s.held := rfl

/-! ### `clearBuffer` -/

@[simp] theorem clearBuffer_cfg (s : State) : (clearBuffer s).cfg = s.cfg := rfl
@[simp] theorem clearBuffer_st (s : State) : (clearBuffer s).st = s.st := rfl
@[simp] theorem clearBuffer_rxbuf (s : State) : (clearBuffer s).rxbuf = [] := rfl
@[simp] theorem clearBuffer_rxcnt (s : State) : (clearBuffer s).rxcnt = 0 := rfl
@[simp] theorem clearBuffer_seq (s : State) : (clearBuffer s).seq = s.seq := rfl
@[simp] theorem clearBuffer_lastId (s : State) : (clearBuffer s).lastId = s.lastId := rfl
@[simp] theorem clearBuffer_lastZone (s : State) : (clearBuffer s).lastZone = s.lastZone := rfl
@[simp] theorem clearBuffer_rr (s : State) : (clearBuffer s).rr = s.rr := rfl
@[simp] theorem clearBuffer_pollTs (s : State) : (clearBuffer s).pollTs = s.pollTs := rfl
@[simp] theorem clearBuffer_txTs (s : State) : (clearBuffer s).txTs = s.txTs := rfl
@[simp] theorem clearBuffer_dir (s : State) : (clearBuffer s).dir = s.dir := rfl
@[simp] theorem clearBuffer_run (s : State) : (clearBuffer s).run = s.run := rfl
@[simp] theorem clearBuffer_slots (s : State) : (clearBuffer s).slots = s.slots := rfl
@[simp] theorem clearBuffer_trace (s : State) : (clearBuffer s).trace = s.trace := rfl
@[simp] theorem clearBuffer_input (s : State) : (clearBuffer s).input = s.input := rfl
@[simp] theorem clearBuffer_result (s : State) : (clearBuffer s).result = s.result := rfl
@[simp] theorem clearBuffer_held (s : State) : (clearBuffer s).held = s.held := rfl

/-! ### `endCycle` -/

@[simp] theorem endCycle_cfg (s : State) : (endCycle s).cfg = s.cfg := rfl
@[simp] theorem endCycle_st (s : State) : (endCycle s).st = .idle := rfl
@[simp] theorem endCycle_rxbuf (s : State) : (endCycle s).rxbuf = [] := rfl
@[simp] theorem endCycle_rxcnt (s : State) : (endCycle s).rxcnt = 0 := rfl
@[simp] theorem endCycle_seq (s : State) : (endCycle s).seq = s.seq := rfl
@[simp] theorem endCycle_lastId (s : State) : (endCycle s).lastId = s.lastId := rfl
@[simp] theorem endCycle_lastZone (s : State) : (endCycle s).lastZone = s.lastZone := rfl
@[simp] theorem endCycle_rr (s : State) : (endCycle s).rr = s.rr := rfl
@[simp] theorem endCycle_pollTs (s : State) : (endCycle s).pollTs = s.pollTs := rfl
@[simp] theorem endCycle_txTs (s : State) : (endCycle s).txTs = s.txTs := rfl
@[simp] theorem endCycle_dir (s : State) : (endCycle s).dir = s.dir := rfl
@[simp] theorem endCycle_run (s : State) : (endCycle s).run = s.run := rfl
@[simp] theorem endCycle_slots (s : State) : (endCycle s).slots = s.slots := rfl
@[simp] theorem endCycle_trace (s : State) : (endCycle s).trace = s.trace := rfl
@[simp] theorem endCycle_input (s : State) : (endCycle s).input = s.input := rfl
@[simp] theorem endCycle_result (s : State) : (endCycle s).result = s.result := rfl
@[simp] theorem endCycle_held (s : State) : (endCycle s).held = s.held := rfl

/-! ### `setRun` -/

@[simp] theorem setRun_cfg (s : State) : (setRun s).cfg = s.cfg := rfl
@[simp] theorem setRun_st (s : State) : (setRun s).st = s.st := rfl
@[simp] theorem setRun_rxbuf (s : State) : (setRun s).rxbuf = s.rxbuf := rfl
@[simp] theorem setRun_rxcnt (s : State) : (setRun s).rxcnt = s.rxcnt := rfl
@[simp] theorem setRun_seq (s : State) : (setRun s).seq = s.seq := rfl
@[simp] theorem setRun_lastId (s : State) : (setRun s).lastId = s.lastId := rfl
@[simp] theorem setRun_lastZone (s : State) : (setRun s).lastZone = s.lastZone := rfl
@[simp] theorem setRun_rr (s : State) : (setRun s).rr = s.rr := rfl
@[simp] theorem setRun_pollTs (s : State) : (setRun s).pollTs = s.pollTs := rfl
@[simp] theorem setRun_txTs (s : State) : (setRun s).txTs = s.txTs := rfl
@[simp] theorem setRun_dir (s : State) : (setRun s).dir = s.dir := rfl
@[simp] theorem setRun_run (s : State) : (setRun s).run = true := rfl
@[simp] theorem setRun_slots (s : State) : (setRun s).slots = s.slots := rfl
@[simp] theorem setRun_trace (s : State) : (setRun s).trace = s.trace := rfl
@[simp] theorem setRun_input (s : State) : (setRun s).input = s.input := rfl
@[simp] theorem setRun_result (s : State) : (setRun s).result = s.result := rfl
@[simp] theorem setRun_held (s : State) : (setRun s).held = s.held := rfl

/-! ### `setSlot` -/

@[simp] theorem setSlot_cfg (k : Nat) (sl : Slot) (s : State) : (setSlot k sl s).cfg = s.cfg := rfl
@[simp] theorem setSlot_st (k : Nat) (sl : Slot) (s : State) : (setSlot k sl s).st = s.st := rfl
@[simp] theorem setSlot_rxbuf (k : Nat) (sl : Slot) (s : State) : (setSlot k sl s).rxbuf = s.rxbuf := rfl
@[simp] theorem setSlot_rxcnt (k : Nat) (sl : Slot) (s : State) : (setSlot k sl s).rxcnt = s.rxcnt := rfl
@[simp] theorem setSlot_seq (k : Nat) (sl : Slot) (s : State) : (setSlot k sl s).seq = s.seq := rfl
@[simp] theorem setSlot_lastId (k : Nat) (sl : Slot) (s : State) : (setSlot k sl s).lastId = s.lastId := rfl
@[simp] theorem setSlot_lastZone (k : Nat) (sl : Slot) (s : State) : (setSlot k sl s).lastZone = s.lastZone := rfl
@[simp] theorem setSlot_rr (k : Nat) (sl : Slot) (s : State) : (setSlot k sl s).rr = s.rr := rfl
@[simp] theorem setSlot_pollTs (k : Nat) (sl : Slot) (s : State) : (setSlot k sl s).pollTs = s.pollTs := rfl
@[simp] theorem setSlot_txTs (k : Nat) (sl : Slot) (s : State) : (setSlot k sl s).txTs = s.txTs := rfl
@[simp] theorem setSlot_dir (k : Nat) (sl : Slot) (s : State) : (setSlot k sl s).dir = s.dir := rfl
@[simp] theorem setSlot_run (k : Nat) (sl : Slot) (s : State) : (setSlot k sl s).run = s.run := rfl
@[simp] theorem setSlot_slots (k : Nat) (sl : Slot) (s : State) : (setSlot k sl s).slots = s.slots.set k sl := rfl
@[simp] theorem setSlot_trace (k : Nat) (sl : Slot) (s : State) : (setSlot k sl s).trace = s.trace := rfl
@[simp] theorem setSlot_input (k : Nat) (sl : Slot) (s : State) : (setSlot k sl s).input = s.input := rfl
@[simp] theorem setSlot_result (k : Nat) (sl : Slot) (s : State) : (setSlot k sl s).result = s.result := rfl
@[simp] theorem setSlot_held (k : Nat) (sl : Slot) (s : State) : (setSlot k sl s).held = s.held := rfl

/-! ### `present` -/

@[simp] theorem present_cfg (r : Record) (s : State) : (present r s).cfg = s.cfg := rfl
@[simp] theorem present_st (r : Record) (s : State) : (present r s).st = s.st := rfl
@[simp] theorem present_rxbuf (r : Record) (s : State) : (present r s).rxbuf = s.rxbuf := rfl
@[simp] theorem present_rxcnt (r : Record) (s : State) : (present r s).rxcnt = s.rxcnt := rfl
@[simp] theorem present_seq (r : Record) (s : State) : (present r s).seq = s.seq := rfl
@[simp] theorem present_lastId (r : Record) (s : State) : (present r s).lastId = s.lastId := rfl
@[simp] theorem present_lastZone (r : Record) (s : State) : (present r s).lastZone = s.lastZone := rfl
@[simp] theorem present_rr (r : Record) (s : State) : (present r s).rr = s.rr := rfl
@[simp] theorem present_pollTs (r : Record) (s : State) : (present r s).pollTs = s.pollTs := rfl
@[simp] theorem present_txTs (r : Record) (s : State) : (present r s).txTs = s.txTs := rfl
@[simp] theorem present_dir (r : Record) (s : State) : (present r s).dir = s.dir := rfl
@[simp] theorem present_run (r : Record) (s : State) : (present r s).run = s.run := rfl
@[simp] theorem present_slots (r : Record) (s : State) : (present r s).slots = s.slots := rfl
@[simp] theorem present_trace (r : Record) (s : State) : (present r s).trace = s.trace := rfl
@[simp] theorem present_input (r : Record) (s : State) : (present r s).input = r :: s.input := rfl
@[simp] theorem present_result (r : Record) (s : State) : (present r s).result = s.result := rfl
@[simp] theorem present_held (r : Record) (s : State) : (present r s).held = s.held := rfl

/-! ### `setPend` -/

@[simp] theorem setPend_zid (v : Bool) (sl : Slot) : (setPend v sl).zid = sl.zid := rfl
@[simp] theorem setPend_power (v : Bool) (sl : Slot) : (setPend v sl).power = sl.power := rfl
@[simp] theorem setPend_mode (v : Bool) (sl : Slot) : (setPend v sl).mode = sl.mode := rfl
@[simp] theorem setPend_fan (v : Bool) (sl : Slot) : (setPend v sl).fan = sl.fan := rfl
@[simp] theorem setPend_swing (v : Bool) (sl : Slot) : (setPend v sl).swing = sl.swing := rfl
@[simp] theorem setPend_target (v : Bool) (sl : Slot) : (setPend v sl).target = sl.target := rfl
@[simp] theorem setPend_cur (v : Bool) (sl : Slot) : (setPend v sl).cur = sl.cur := rfl
@[simp] theorem setPend_curValid (v : Bool) (sl : Slot) : (setPend v sl).curValid = sl.curValid := rfl
@[simp] theorem setPend_pend (v : Bool) (sl : Slot) : (setPend v sl).pend = v := rfl

/-! ### `setCur` -/

@[simp] theorem setCur_zid (t : Byte) (sl : Slot) : (setCur t sl).zid = sl.zid := rfl
@[simp] theorem setCur_power (t : Byte) (sl : Slot) : (setCur t sl).power = sl.power := rfl
@[simp] theorem setCur_mode (t : Byte) (sl : Slot) : (setCur t sl).mode = sl.mode := rfl
@[simp] theorem setCur_fan (t : Byte) (sl : Slot) : (setCur t sl).fan = sl.fan := rfl
@[simp] theorem setCur_swing (t : Byte) (sl : Slot) : (setCur t sl).swing = sl.swing := rfl
@[simp] theorem setCur_target (t : Byte) (sl : Slot) : (setCur t sl).target = sl.target := rfl
@[simp] theorem setCur_cur (t : Byte) (sl : Slot) : (setCur t sl).cur = t := rfl
@[simp] theorem setCur_curValid (t : Byte) (sl : Slot) : (setCur t sl).curValid = true := rfl
@[simp] theorem setCur_pend (t : Byte) (sl : Slot) : (setCur t sl).pend = sl.pend := rfl

/-! ### `commandSlot` -/

@[simp] theorem commandSlot_zid (p : Bit) (m : BitVec 3) (f : BitVec 2) (w : Bit) (t : Byte) (sl : Slot) : (commandSlot p m f w t sl).zid = sl.zid := rfl
@[simp] theorem commandSlot_power (p : Bit) (m : BitVec 3) (f : BitVec 2) (w : Bit) (t : Byte) (sl : Slot) : (commandSlot p m f w t sl).power = p := rfl
@[simp] theorem commandSlot_mode (p : Bit) (m : BitVec 3) (f : BitVec 2) (w : Bit) (t : Byte) (sl : Slot) : (commandSlot p m f w t sl).mode = m := rfl
@[simp] theorem commandSlot_fan (p : Bit) (m : BitVec 3) (f : BitVec 2) (w : Bit) (t : Byte) (sl : Slot) : (commandSlot p m f w t sl).fan = encFan f := rfl
@[simp] theorem commandSlot_swing (p : Bit) (m : BitVec 3) (f : BitVec 2) (w : Bit) (t : Byte) (sl : Slot) : (commandSlot p m f w t sl).swing = w := rfl
@[simp] theorem commandSlot_target (p : Bit) (m : BitVec 3) (f : BitVec 2) (w : Bit) (t : Byte) (sl : Slot) : (commandSlot p m f w t sl).target = t := rfl
@[simp] theorem commandSlot_cur (p : Bit) (m : BitVec 3) (f : BitVec 2) (w : Bit) (t : Byte) (sl : Slot) : (commandSlot p m f w t sl).cur = sl.cur := rfl
@[simp] theorem commandSlot_curValid (p : Bit) (m : BitVec 3) (f : BitVec 2) (w : Bit) (t : Byte) (sl : Slot) : (commandSlot p m f w t sl).curValid = sl.curValid := rfl
@[simp] theorem commandSlot_pend (p : Bit) (m : BitVec 3) (f : BitVec 2) (w : Bit) (t : Byte) (sl : Slot) : (commandSlot p m f w t sl).pend = sl.pend := rfl

/-! ### `resetSlot` -/

@[simp] theorem resetSlot_zid (c : Config) (sl : Slot) : (resetSlot c sl).zid = sl.zid := rfl
@[simp] theorem resetSlot_power (c : Config) (sl : Slot) : (resetSlot c sl).power = 0 := rfl
@[simp] theorem resetSlot_mode (c : Config) (sl : Slot) : (resetSlot c sl).mode = 0 := rfl
@[simp] theorem resetSlot_fan (c : Config) (sl : Slot) : (resetSlot c sl).fan = 0 := rfl
@[simp] theorem resetSlot_swing (c : Config) (sl : Slot) : (resetSlot c sl).swing = 0 := rfl
@[simp] theorem resetSlot_target (c : Config) (sl : Slot) : (resetSlot c sl).target = c.minTemp := rfl
@[simp] theorem resetSlot_cur (c : Config) (sl : Slot) : (resetSlot c sl).cur = 0 := rfl
@[simp] theorem resetSlot_curValid (c : Config) (sl : Slot) : (resetSlot c sl).curValid = false := rfl
@[simp] theorem resetSlot_pend (c : Config) (sl : Slot) : (resetSlot c sl).pend = false := rfl

end Sys2Proof.Laws
end

