-- ==== Sys2Proof/Laws/Ops.lean ====
section
/-! SUPPORT. One lemma for each shared operation that says all it does: transmission, the end of a cycle, raising an error, the
searches of the registry and the refused configurations. -/

namespace Sys2Proof.Laws

open Sys2Proof.Machine Sys2Proof.Safety

/-! ### Transmission -/

theorem txBytes_eq (f : List Byte) (s : State) : txBytes f s = { s with trace := s.trace ++ f.map .txByte } := by
  unfold txBytes
  induction f generalizing s with
  | nil => simp
  | cons b f ih => rw [List.foldl_cons, ih]; simp [emit]

/-- TRANSMIT leaves DIR deasserted and appends the bracketed bytes; nothing else changes. -/
theorem transmit_eq (f : List Byte) (s : State) :
    transmit f s = { s with dir := false, trace := s.trace ++ transmission f } := by
  simp [transmit, txBytes_eq, assertDir, deassertDir, emit, transmission]

/-- SEND: the transmission, the outstanding request and the armed deadline. -/
theorem send_eq (sl : Slot) (write : Bit) (now : Time) (s : State) :
    send sl write now s = { s with
      dir := false
      trace := s.trace ++ transmission
        (encodeRequest s.cfg (slotZone sl) s.seq write sl.power sl.mode sl.swing sl.fan sl.target)
      lastId := s.seq
      lastZone := slotZone sl
      seq := s.seq + 1
      txTs := now
      rxbuf := []
      rxcnt := 0
      st := .awaitResponse } := by
  simp [send, transmit_eq, clearBuffer]

/-! ### Raising an error -/

/-- The kinds that end a cycle: the event, and ST, RXBUF and RXCNT; nothing else changes (60_exceptions.md R262). -/
theorem raise_checksumMismatch (s : State) : raise .checksumMismatch s = abandoned s 1 := rfl

theorem raise_uncorrelatedResponse (s : State) : raise .uncorrelatedResponse s = abandoned s 3 := rfl

theorem raise_receiveTimeout (s : State) : raise .receiveTimeout s = abandoned s 4 := rfl

theorem raise_unknownZone (s : State) : raise .unknownZone s = abandoned s 5 := rfl

/-- Code 6 is an event and nothing else. -/
theorem raise_invalid (f : FieldName) (s : State) :
    raise (.invalidModeOrFanOrSwingValue f) s =
      { s with trace := s.trace ++ [.err 6 (errorDetail (.invalidModeOrFanOrSwingValue f))] } := rfl

/-! ### Sequencing -/

@[simp] theorem andThen_next (s : State) (f : State → Answer) : andThen (.next s) f = f s := rfl

theorem andThen_eq_next {o : Answer} {f : State → Answer} {t : State} (h : andThen o f = .next t) :
    ∃ u, o = .next u ∧ f u = .next t := by
  cases o with
  | next u => exact ⟨u, rfl, h⟩
  | fault r => cases h
  | refused r => cases h

/-! ### The registry -/

theorem zidActive_iff (z : Int) : zidActive z = true ↔ 0 ≤ z ∧ z ≤ 255 := by simp [zidActive]

theorem slotActive_iff (sl : Slot) : slotActive sl = true ↔ 0 ≤ sl.zid ∧ sl.zid ≤ 255 := zidActive_iff sl.zid

/-- The wire id of an active slot is its zone id. -/
theorem slotZone_eq_iff {sl : Slot} (h : slotActive sl = true) (z : Byte) : slotZone sl = z ↔ sl.zid = (z.toNat : Int) := by
  have hb := (slotActive_iff sl).1 h
  have hz := z.isLt
  have ht : ((slotZone sl).toNat : Int) = sl.zid := by
    simp only [slotZone, BitVec.toNat_ofInt]
    omega
  constructor
  · intro he
    rw [← ht, he]
  · intro he
    apply BitVec.eq_of_toNat_eq
    omega

/-- A slot index that `firstPending` gives is pending, active and the least such. -/
theorem firstPending_eq_some_iff (slots : List Slot) (k : Nat) :
    firstPending slots = some k ↔
      (∃ sl, slots[k]? = some sl ∧ sl.pend = true ∧ slotActive sl = true) ∧
        ∀ j sl, j < k → slots[j]? = some sl → ¬ (sl.pend = true ∧ slotActive sl = true) := by
  rw [firstPending, List.findIdx?_eq_some_iff_getElem]
  constructor
  · rintro ⟨hk, hp, hl⟩
    refine ⟨⟨slots[k], List.getElem?_eq_getElem hk, by simpa using hp⟩, fun j sl hj hs => ?_⟩
    obtain ⟨hlt, rfl⟩ := List.getElem?_eq_some_iff.1 hs
    simpa using hl j hj
  · rintro ⟨⟨sl, hs, hp⟩, hl⟩
    obtain ⟨hk, rfl⟩ := List.getElem?_eq_some_iff.1 hs
    refine ⟨hk, by simpa using hp, fun j hj => ?_⟩
    simpa using hl j slots[j] hj (List.getElem?_eq_getElem (by omega))

/-- There is no write step exactly when no slot is pending and active. -/
theorem firstPending_eq_none_iff (s : State) : firstPending s.slots = none ↔ ¬ WritePending s := by
  simp [firstPending, WritePending]

/-- A slot index that `slotOf` gives is active and has the zone id. -/
theorem slotOf_eq_some {slots : List Slot} {zone : Byte} {k : Nat} (h : slotOf slots zone = some k) :
    ∃ sl, slots[k]? = some sl ∧ slotActive sl = true ∧ slotZone sl = zone := by
  rw [slotOf, List.findIdx?_eq_some_iff_getElem] at h
  obtain ⟨hk, hp, -⟩ := h
  exact ⟨slots[k], List.getElem?_eq_getElem hk, by simpa using hp⟩

theorem slotOf_eq_none_iff (s : State) (zone : Byte) : slotOf s.slots zone = none ↔ ¬ ActiveZone s zone := by
  simp [slotOf, ActiveZone]

/-- The refused configurations (00_scope.md R8): an id above 255, or one active id twice. -/
theorem zidsRefused_iff (zids : List Int) :
    zidsRefused zids = true ↔
      (∃ z ∈ zids, 255 < z) ∨
      ∃ (j k : Nat) (a : Int), j < k ∧ zids[j]? = some a ∧ zids[k]? = some a ∧ 0 ≤ a ∧ a ≤ 255 := by
  induction zids with
  | nil => simp [zidsRefused]
  | cons z zs ih =>
    simp only [zidsRefused, Bool.or_eq_true, decide_eq_true_eq, Bool.and_eq_true, List.contains_iff_mem, ih,
      zidActive_iff, gt_iff_lt]
    constructor
    · rintro ((h | ⟨hz, hm⟩) | ⟨x, hx, h⟩ | ⟨j, k, a, hjk, hj, hk, ha⟩)
      · exact .inl ⟨z, by simp, h⟩
      · obtain ⟨k, hk⟩ := List.mem_iff_getElem?.1 hm
        exact .inr ⟨0, k + 1, z, by omega, by simp, by simpa using hk, hz⟩
      · exact .inl ⟨x, by simp [hx], h⟩
      · exact .inr ⟨j + 1, k + 1, a, by omega, by simpa using hj, by simpa using hk, ha⟩
    · rintro (⟨x, hx, h⟩ | ⟨j, k, a, hjk, hj, hk, ha⟩)
      · rcases List.mem_cons.1 hx with rfl | hx
        · exact .inl (.inl h)
        · exact .inr (.inl ⟨x, hx, h⟩)
      · obtain ⟨k, rfl⟩ : ∃ n, k = n + 1 := ⟨k - 1, by omega⟩
        rcases j with _ | j
        · obtain rfl : z = a := by simpa using hj
          exact .inl (.inr ⟨ha, List.mem_iff_getElem?.2 ⟨k, by simpa using hk⟩⟩)
        · exact .inr (.inr ⟨j, k, a, by omega, by simpa using hj, by simpa using hk, ha⟩)

/-- Under an accepted configuration an active zone id is that of one slot. -/
theorem activeZone_unique {s : State} (h : configRefused s = false) {j k : Nat} {a b : Slot} (hj : s.slots[j]? = some a)
    (hk : s.slots[k]? = some b) (ha : slotActive a = true) (hab : a.zid = b.zid) : j = k := by
  have hz := (slotActive_iff a).1 ha
  have hn : ¬ zidsRefused (s.slots.map (·.zid)) = true := by simpa [configRefused] using h
  rw [zidsRefused_iff] at hn
  rcases Nat.lt_trichotomy j k with hlt | heq | hgt
  · exact absurd (.inr ⟨j, k, a.zid, hlt, by simp [hj], by simp [hk, hab], hz⟩) hn
  · exact heq
  · exact absurd (.inr ⟨k, j, a.zid, hgt, by simp [hk, hab], by simp [hj], hz⟩) hn

/-- SLOT_OF finds the slot with an active zone id. -/
theorem slotOf_eq_some_of {s : State} (h : configRefused s = false) {k : Nat} {sl : Slot} (hk : s.slots[k]? = some sl)
    {zone : Byte} (hz : sl.zid = (zone.toNat : Int)) : slotOf s.slots zone = some k := by
  have hlt := zone.isLt
  have ha : slotActive sl = true := (slotActive_iff sl).2 (by omega)
  have hzone : slotZone sl = zone := (slotZone_eq_iff ha zone).2 hz
  cases ho : slotOf s.slots zone with
  | none =>
    exact absurd ⟨sl, List.mem_of_getElem? hk, ha, hzone⟩ ((slotOf_eq_none_iff s zone).1 ho)
  | some j =>
    obtain ⟨sl', hj, ha', hzone'⟩ := slotOf_eq_some ho
    rw [activeZone_unique h hj hk ha' (((slotZone_eq_iff ha' zone).1 hzone').trans hz.symm)]

end Sys2Proof.Laws
end

