-- ==== Sys2Proof/Laws/Controller.lean ====
section
/-! SUPPORT. The width of RR, and what TICK and RX_BYTE can do, said once: the branches of a tick, and the outcomes of a received
byte and of a completed frame. -/

namespace Sys2Proof.Laws

open Sys2Proof.Machine Sys2Proof.Safety

/-! ### The width of RR -/

theorem le_two_pow_ceilLog2 (n : Nat) : n ≤ 2 ^ ceilLog2 n := by
  unfold ceilLog2
  split
  · simpa
  · have := Nat.lt_log2_self (n := n - 1)
    omega

/-- Every slot index of a registry of at most NZ_MAX slots fits RR. -/
theorem lt_two_pow_rrWidth {c : Config} {v : Nat} (h : v < c.nzMax) : v < 2 ^ rrWidth c :=
  Nat.lt_of_lt_of_le h ((le_two_pow_ceilLog2 _).trans (Nat.pow_le_pow_right (by omega) (Nat.le_max_left _ _)))

theorem holdRr_lt (c : Config) (v : Nat) : holdRr c v < 2 ^ rrWidth c := Nat.mod_lt _ (by positivity)

theorem holdRr_le (c : Config) (v : Nat) : holdRr c v ≤ v := Nat.mod_le _ _

@[simp] theorem holdRr_zero (c : Config) : holdRr c 0 = 0 := Nat.zero_mod _

theorem holdRr_of_lt {c : Config} {v : Nat} (h : v < c.nzMax) : holdRr c v = v :=
  Nat.mod_eq_of_lt (lt_two_pow_rrWidth h)

/-- The reset value of RR and its legal values fit its width. -/
theorem holdRr_last {c : Config} {n : Nat} (h : n ≤ c.nzMax) : holdRr c (n - 1) = n - 1 := by
  rcases Nat.eq_zero_or_pos n with rfl | hn
  · simp
  · exact holdRr_of_lt (by omega)

theorem nextRr_lt {s : State} (h : s.slots ≠ []) : nextRr s < s.slots.length :=
  Nat.lt_of_le_of_lt (holdRr_le _ _) (Nat.mod_lt _ (List.length_pos_iff.2 h))

/-- With at most NZ_MAX slots, RR advances by one modulo N (41_controller.md R179). -/
theorem nextRr_eq {s : State} (h : s.slots.length ≤ s.cfg.nzMax) (hne : s.slots ≠ []) :
    nextRr s = (s.rr + 1) % s.slots.length :=
  holdRr_of_lt (Nat.lt_of_lt_of_le (Nat.mod_lt _ (List.length_pos_iff.2 hne)) h)

/-! ### TICK -/

/-- The write step goes to the least pending active slot. -/
theorem writeTarget_eq_some_iff (s : State) (k : Nat) (sl : Slot) :
    writeTarget s = some (k, sl) ↔ firstPending s.slots = some k ∧ s.slots[k]? = some sl := by
  unfold writeTarget
  cases firstPending s.slots with
  | none => simp
  | some j =>
    simp only [Option.map_eq_some_iff, Prod.mk.injEq, Option.some.injEq]
    constructor
    · rintro ⟨a, ha, rfl, rfl⟩
      exact ⟨rfl, ha⟩
    · rintro ⟨rfl, h⟩
      exact ⟨sl, h, rfl, rfl⟩

theorem writeTarget_eq_none_iff (s : State) : writeTarget s = none ↔ ¬ WritePending s := by
  rw [← firstPending_eq_none_iff]
  unfold writeTarget
  cases h : firstPending s.slots with
  | none => simp
  | some j =>
    obtain ⟨⟨sl, hs, -⟩, -⟩ := (firstPending_eq_some_iff s.slots j).1 h
    simp [hs]

/-- A poll step goes to the slot after RR, once the poll interval has elapsed. -/
theorem pollTarget_eq_some_iff (now : Time) (s : State) (sl : Slot) :
    pollTarget now s = some sl ↔
      elapsed now s.pollTs s.cfg.pollInterval = true ∧ s.slots[nextRr s]? = some sl := by
  unfold pollTarget
  split <;> simp_all

theorem pollTarget_eq_none_iff (now : Time) (s : State) :
    pollTarget now s = none ↔ s.slots = [] ∨ elapsed now s.pollTs s.cfg.pollInterval = false := by
  unfold pollTarget
  split
  · next he =>
    simp only [he, Bool.true_eq_false, or_false]
    constructor
    · intro h
      by_contra hne
      have hlt : nextRr s < s.slots.length := nextRr_lt hne
      rw [List.getElem?_eq_getElem hlt] at h
      cases h
    · intro h
      simp [h]
  · simp_all

theorem elapsed_iff (now ts interval : Time) : elapsed now ts interval = true ↔ interval.toNat ≤ (now - ts).toNat := by
  simp [elapsed]

/-- The state after a write step. -/
theorem writeStep_eq (k : Nat) (sl : Slot) (now : Time) (s : State) :
    writeStep k sl now s = { s with
      dir := false
      trace := s.trace ++ transmission
        (encodeRequest s.cfg (slotZone sl) s.seq 1 sl.power sl.mode sl.swing sl.fan sl.target)
      lastId := s.seq
      lastZone := slotZone sl
      seq := s.seq + 1
      txTs := now
      rxbuf := []
      rxcnt := 0
      st := .awaitResponse
      slots := s.slots.set k { sl with pend := false } } := by
  simp [writeStep, send_eq, setSlot, setPend]

/-- The state after a poll step: a read request to an active slot, none to an inactive one. -/
theorem pollStep_eq (sl : Slot) (now : Time) (s : State) :
    pollStep sl now s =
      if slotActive sl = true then { s with
        dir := false
        trace := s.trace ++ transmission
          (encodeRequest s.cfg (slotZone sl) s.seq 0 sl.power sl.mode sl.swing sl.fan sl.target)
        lastId := s.seq
        lastZone := slotZone sl
        seq := s.seq + 1
        txTs := now
        rr := nextRr s
        pollTs := now
        rxbuf := []
        rxcnt := 0
        st := .awaitResponse }
      else { s with rr := nextRr s, pollTs := now } := by
  simp only [pollStep]
  split
  · simp [send_eq]
  · rfl

/-- The branches of a TICK (41_controller.md R175 to R181), on the state with RUN set. -/
theorem tick_cases (now : Time) (s : State) :
    (s.st = .idle ∧ ∃ k sl, firstPending s.slots = some k ∧ s.slots[k]? = some sl ∧
      tick now s = writeStep k sl now (setRun s)) ∨
    (s.st = .idle ∧ ¬ WritePending s ∧ ∃ sl, elapsed now s.pollTs s.cfg.pollInterval = true ∧
      s.slots[nextRr s]? = some sl ∧ tick now s = pollStep sl now (setRun s)) ∨
    (s.st = .idle ∧ ¬ WritePending s ∧ (s.slots = [] ∨ elapsed now s.pollTs s.cfg.pollInterval = false) ∧
      tick now s = setRun s) ∨
    (s.st ≠ .idle ∧ elapsed now s.txTs s.cfg.rxTimeout = true ∧ tick now s = abandoned (setRun s) 4) ∨
    (s.st ≠ .idle ∧ elapsed now s.txTs s.cfg.rxTimeout = false ∧ tick now s = setRun s) := by
  have hidle : s.st = .idle → tick now s = idleTick now (setRun s) := fun h => by simp [tick, h]
  have hwait : s.st ≠ .idle → tick now s = timeoutCheck now (setRun s) := fun h => by
    cases hs : s.st with
    | idle => exact absurd hs h
    | awaitResponse => simp [tick, hs]
    | receiving => simp [tick, hs]
  by_cases hs : s.st = .idle
  · cases hw : writeTarget (setRun s) with
    | some p =>
      obtain ⟨k, sl⟩ := p
      obtain ⟨h1, h2⟩ := (writeTarget_eq_some_iff _ _ _).1 hw
      exact .inl ⟨hs, k, sl, h1, h2, by simp [hidle hs, idleTick, hw]⟩
    | none =>
      have hn : ¬ WritePending s := (writeTarget_eq_none_iff _).1 hw
      cases hp : pollTarget now (setRun s) with
      | some sl =>
        obtain ⟨h1, h2⟩ := (pollTarget_eq_some_iff _ _ _).1 hp
        exact .inr (.inl ⟨hs, hn, sl, h1, h2, by simp [hidle hs, idleTick, hw, hp]⟩)
      | none =>
        exact .inr (.inr (.inl ⟨hs, hn, (pollTarget_eq_none_iff _ _).1 hp, by simp [hidle hs, idleTick, hw, hp]⟩))
  · by_cases he : elapsed now s.txTs s.cfg.rxTimeout = true
    · exact .inr (.inr (.inr (.inl ⟨hs, he, by simp [hwait hs, timeoutCheck, he, raise_receiveTimeout]⟩)))
    · have he : elapsed now s.txTs s.cfg.rxTimeout = false := by simpa using he
      exact .inr (.inr (.inr (.inr ⟨hs, he, by simp [hwait hs, timeoutCheck, he]⟩)))

/-! ### A completed frame -/

/-- The raw fields of a frame. -/
theorem decodeSlot_eq (c : Config) (frame : List Byte) (f : ResponseFields) (sl : Slot)
    (hp : f.power = BitVec.ofNat 1 ((frame.getD 1 0).toNat % 2))
    (hm : f.modeBits = BitVec.ofNat 3 ((frame.getD 6 0).toNat % 8))
    (hs : f.swingBit = BitVec.ofNat 1 ((frame.getD 6 0).toNat / 8 % 2))
    (hf : f.fanBits = BitVec.ofNat 3 ((frame.getD 6 0).toNat / 16 % 8)) (hc : f.curRaw = frame.getD 8 0) :
    decodeSlot c f (frame.getD 7 0) sl = responded c frame sl := by
  have hlt : (frame.getD 6 0).toNat % 8 < 8 := Nat.mod_lt _ (by decide)
  have hlf : (frame.getD 6 0).toNat / 16 % 8 < 8 := Nat.mod_lt _ (by decide)
  have hlp : (frame.getD 1 0).toNat % 2 < 2 := Nat.mod_lt _ (by decide)
  have hcmd : decodeCommanded f (frame.getD 7 0) sl = respondedCommanded frame sl := by
    unfold decodeCommanded respondedCommanded
    rw [hp, hm, hs, hf, decTarget_eq]
    generalize (frame.getD 6 0).toNat % 8 = m at *
    generalize (frame.getD 6 0).toNat / 16 % 8 = fa at *
    generalize (frame.getD 1 0).toNat % 2 = p at *
    have h1 : ((decFan (BitVec.ofNat 3 fa)).1.getD sl.fan) = if fa ≤ 2 then BitVec.ofNat 2 fa else sl.fan := by
      interval_cases fa <;> rfl
    have h2 : (BitVec.ofNat 1 p = 0 ∨ (decMode (BitVec.ofNat 1 p) (BitVec.ofNat 3 m)).2.isSome = true) ↔
        ¬ (p = 1 ∧ m ≤ 4) := by
      interval_cases p <;> interval_cases m <;> decide
    simp only [h1, h2, decSwing]
    by_cases h : p = 1 ∧ m ≤ 4 <;> simp [h]
  unfold decodeSlot responded
  rw [hc, hcmd]
  have hmay : mayOverwrite c sl = true ↔ ¬ (sl.pend = true ∧ c.decodeOverwritesPending = false) := by
    unfold mayOverwrite
    cases sl.pend <;> cases c.decodeOverwritesPending <;> simp
  by_cases h : mayOverwrite c sl = true
  · rw [if_pos h, if_neg (hmay.1 h)]
    rfl
  · rw [if_neg h, if_pos (Decidable.not_not.1 (fun hn => h (hmay.2 hn)))]
    rfl

theorem slotObservable_eq_iff (a b : Slot) : slotObservable a = slotObservable b ↔ SameObservable a b := by
  simp [slotObservable, SameObservable, slotVmode, vmodeOff]

theorem sameObservable_comm {a b : Slot} : SameObservable a b ↔ SameObservable b a :=
  ⟨fun ⟨h1, h2, h3, h4, h5, h6⟩ => ⟨h1.symm, h2.symm, h3.symm, h4.symm, h5.symm, h6.symm⟩,
    fun ⟨h1, h2, h3, h4, h5, h6⟩ => ⟨h1.symm, h2.symm, h3.symm, h4.symm, h5.symm, h6.symm⟩⟩

/-- The field errors of a response, as events (41_controller.md R191). -/
theorem raiseIf_decMode (p m : Nat) (hp : p < 2) (hm : m < 8) (s : State) :
    raiseIf (decMode (BitVec.ofNat 1 p) (BitVec.ofNat 3 m)).2 s =
      { s with trace := s.trace ++ if p = 1 ∧ 4 < m then [.err 6 0] else [] } := by
  interval_cases p <;> interval_cases m <;> simp [decMode, modeOk, raiseIf, raise_invalid, errorDetail]

theorem raiseIf_decFan (f : Nat) (hf : f < 8) (s : State) :
    raiseIf (decFan (BitVec.ofNat 3 f)).2 s = { s with trace := s.trace ++ if 2 < f then [.err 6 1] else [] } := by
  interval_cases f <;> simp [decFan, raiseIf, raise_invalid, errorDetail]

/-- The dispatch of a frame to slot k: the slot's registers, the events, the end of the cycle; nothing else changes. -/
theorem endCycle_decodeIntoSlot (s : State) (k : Nat) (sl : Slot) (frame : List Byte) (f : ResponseFields)
    (hp : f.power = BitVec.ofNat 1 ((frame.getD 1 0).toNat % 2))
    (hm : f.modeBits = BitVec.ofNat 3 ((frame.getD 6 0).toNat % 8))
    (hs : f.swingBit = BitVec.ofNat 1 ((frame.getD 6 0).toNat / 8 % 2))
    (hf : f.fanBits = BitVec.ofNat 3 ((frame.getD 6 0).toNat / 16 % 8)) (hc : f.curRaw = frame.getD 8 0) :
    endCycle (decodeIntoSlot k sl f (frame.getD 7 0) s) = dispatched s k frame sl := by
  have hlt : (frame.getD 6 0).toNat % 8 < 8 := Nat.mod_lt _ (by decide)
  have hlf : (frame.getD 6 0).toNat / 16 % 8 < 8 := Nat.mod_lt _ (by decide)
  have hlp : (frame.getD 1 0).toNat % 2 < 2 := Nat.mod_lt _ (by decide)
  unfold decodeIntoSlot
  simp only [decodeSlot_eq s.cfg frame f sl hp hm hs hf hc, hp, hm, hf, raiseIf_decMode _ _ hlp hlt,
    raiseIf_decFan _ hlf, slotObservable_eq_iff, dispatched, dispatchEvents]
  by_cases h : SameObservable (responded s.cfg frame sl) sl
  · have h' : SameObservable sl (responded s.cfg frame sl) := sameObservable_comm.1 h
    simp only [if_pos h, if_pos h', endCycle, clearBuffer, setSlot, List.append_assoc, List.append_nil]
  · have h' : ¬ SameObservable sl (responded s.cfg frame sl) := fun hn => h (sameObservable_comm.1 hn)
    simp only [if_neg h, if_neg h', endCycle, clearBuffer, setSlot, emit, List.append_assoc]

/-- The outcomes of FRAME_COMPLETE (41_controller.md R187). -/
theorem frameComplete_cases (s : State) :
    let frame := bufBytes s.rxbuf
    (¬ ChecksumGood frame ∧ frameComplete s = abandoned s 1) ∨
    (ChecksumGood frame ∧ correlate (frame.getD 4 0) (responseId s.cfg frame) s.lastZone s.lastId = false ∧
      frameComplete s = abandoned s 3) ∨
    (ChecksumGood frame ∧ correlate (frame.getD 4 0) (responseId s.cfg frame) s.lastZone s.lastId = true ∧
      ¬ ActiveZone s s.lastZone ∧ frameComplete s = abandoned s 5) ∨
    (ChecksumGood frame ∧ correlate (frame.getD 4 0) (responseId s.cfg frame) s.lastZone s.lastId = true ∧
      ∃ k sl, slotOf s.slots s.lastZone = some k ∧ s.slots[k]? = some sl ∧
        frameComplete s = dispatched s k frame sl) := by
  intro frame
  have hgood : verifyChecksum frame = true ↔ ChecksumGood frame := by
    simp [verifyChecksum, ChecksumGood, sumXor, checksum_eq]
  have hfields := decodeResponse_eq s.cfg (bytes := frame) (by simp [frame])
  by_cases hv : verifyChecksum frame = true
  · have hg := hgood.1 hv
    by_cases hc : correlate (frame.getD 4 0) (responseId s.cfg frame) s.lastZone s.lastId = true
    · have hz : frame.getD 4 0 = s.lastZone := ((correlate_iff _ _ _ _).1 hc).1
      have hfc : frameComplete s = dispatchFrame
          { zoneId := frame.getD 4 0
            requestId := responseId s.cfg frame
            power := BitVec.ofNat 1 ((frame.getD 1 0).toNat % 2)
            modeBits := BitVec.ofNat 3 ((frame.getD 6 0).toNat % 8)
            swingBit := BitVec.ofNat 1 ((frame.getD 6 0).toNat / 8 % 2)
            fanBits := BitVec.ofNat 3 ((frame.getD 6 0).toNat / 16 % 8)
            targetRaw := BitVec.ofNat 4 ((frame.getD 7 0).toNat % 16)
            curRaw := frame.getD 8 0 } (frame.getD 7 0) s := by
        unfold frameComplete
        simp only [frame] at hv hfields hc
        simp only [hv, hfields, hc, if_true]
        rfl
      cases ho : slotOf s.slots s.lastZone with
      | none =>
        refine .inr (.inr (.inl ⟨hg, hc, (slotOf_eq_none_iff s _).1 ho, ?_⟩))
        rw [hfc, dispatchFrame]
        simp only [hz, ho, raise_unknownZone]
      | some k =>
        obtain ⟨sl, hk, -, -⟩ := slotOf_eq_some ho
        refine .inr (.inr (.inr ⟨hg, hc, k, sl, rfl, hk, ?_⟩))
        rw [hfc, dispatchFrame]
        simp only [hz, ho, hk]
        exact endCycle_decodeIntoSlot s k sl frame _ rfl rfl rfl rfl rfl
    · have hc : correlate (frame.getD 4 0) (responseId s.cfg frame) s.lastZone s.lastId = false := by simpa using hc
      refine .inr (.inl ⟨hg, hc, ?_⟩)
      unfold frameComplete
      simp only [frame] at hv hfields hc
      simp only [hv, hfields, hc, if_true, raise_uncorrelatedResponse]
      rfl
  · refine .inl ⟨fun h => hv (hgood.2 h), ?_⟩
    unfold frameComplete
    simp only [frame] at hv
    simp only [hv, raise_checksumMismatch]
    rfl

/-! ### RX_BYTE -/

/-- What RX_BYTE answers when it answers a next state (41_controller.md R182 to R187). -/
theorem execRxByte_cases {b : Byte} {s t : State} (h : execRxByte b s = .next t) :
    (s.st ≠ .receiving ∧ t = s ∧ (s.st = .awaitResponse → b ≠ 0x10)) ∨
    (s.st = .awaitResponse ∧ b = 0x10 ∧ t = { s with rxbuf := bufPut s.rxbuf 0 b, rxcnt := 1, st := .receiving }) ∨
    (s.st = .receiving ∧ s.rxcnt.toNat < 15 ∧
      t = { s with rxbuf := bufPut s.rxbuf s.rxcnt.toNat b, rxcnt := s.rxcnt + 1 }) ∨
    (s.st = .receiving ∧ s.rxcnt.toNat = 15 ∧
      t = frameComplete { s with rxbuf := bufPut s.rxbuf 15 b, rxcnt := 16 }) := by
  unfold execRxByte at h
  split at h
  · next hs =>
    cases h
    exact .inl ⟨by simp [hs], rfl, by simp [hs]⟩
  · next hs =>
    split at h
    · next hb =>
      subst hb
      simp only [startFrame, memWrite_eq_ok _ _ (show 0 < 16 by decide), Host.Outcome.next.injEq] at h
      exact .inr (.inl ⟨hs, rfl, h.symm⟩)
    · next hb =>
      cases h
      exact .inl ⟨by simp [hs], rfl, fun _ => hb⟩
  · next hs =>
    unfold appendByte at h
    by_cases hlt : s.rxcnt.toNat < 16
    · simp only [memWrite_eq_ok _ _ hlt] at h
      split at h
      · next hc =>
        have hc' : s.rxcnt = 15 := by
          rw [show s.rxcnt = s.rxcnt + 1 - 1 by simp, hc]
          rfl
        cases h
        exact .inr (.inr (.inr ⟨hs, by simp [hc'], by simp [hc']⟩))
      · next hc =>
        cases h
        have : s.rxcnt.toNat ≠ 15 := fun he => hc (by
          apply BitVec.eq_of_toNat_eq
          simp [he])
        exact .inr (.inr (.inl ⟨hs, by omega, rfl⟩))
    · simp only [memWrite_eq_error _ _ (Nat.not_lt.1 hlt), reduceCtorEq] at h

/-- RX_BYTE answers a next state wherever RXCNT is below 16 in Receiving. -/
theorem execRxByte_completes (b : Byte) {s : State} (h : s.st = .receiving → s.rxcnt.toNat < 16) :
    ∃ t, execRxByte b s = .next t := by
  unfold execRxByte
  split
  · exact ⟨_, rfl⟩
  · split
    · simp [startFrame, memWrite_eq_ok _ _ (show 0 < 16 by decide)]
    · exact ⟨_, rfl⟩
  · next hs =>
    simp only [appendByte, memWrite_eq_ok _ _ (h hs)]
    split <;> exact ⟨_, rfl⟩

theorem execRxByte_start {s : State} (h : s.st = .awaitResponse) :
    execRxByte 0x10 s = .next { s with rxbuf := bufPut s.rxbuf 0 0x10, rxcnt := 1, st := .receiving } := by
  simp [execRxByte, h, startByte, startFrame, memWrite_eq_ok _ _ (show 0 < 16 by decide)]

theorem execRxByte_append (b : Byte) {s : State} (h : s.st = .receiving) (hc : s.rxcnt.toNat < 15) :
    execRxByte b s = .next { s with rxbuf := bufPut s.rxbuf s.rxcnt.toNat b, rxcnt := s.rxcnt + 1 } := by
  obtain ⟨t, ht⟩ := execRxByte_completes b (s := s) (fun _ => by omega)
  rcases execRxByte_cases ht with ⟨h1, -⟩ | ⟨h1, -⟩ | ⟨-, -, rfl⟩ | ⟨-, h1, -⟩
  · exact absurd h h1
  · rw [h] at h1
    cases h1
  · exact ht
  · omega

theorem execRxByte_complete (b : Byte) {s : State} (h : s.st = .receiving) (hc : s.rxcnt.toNat = 15) :
    execRxByte b s = .next (frameComplete { s with rxbuf := bufPut s.rxbuf 15 b, rxcnt := 16 }) := by
  obtain ⟨t, ht⟩ := execRxByte_completes b (s := s) (fun _ => by omega)
  rcases execRxByte_cases ht with ⟨h1, -⟩ | ⟨h1, -⟩ | ⟨-, h1, -⟩ | ⟨-, -, rfl⟩
  · exact absurd h h1
  · rw [h] at h1
    cases h1
  · omega
  · exact ht

end Sys2Proof.Laws
end

