-- ==== Sys2Proof/Laws/Decode.lean ====
section
/-! SUPPORT. The laws of the record readers: each reads back what the encoder writes, and reads nothing else. -/

namespace Sys2Proof.Laws

open Sys2Proof.Machine

/-- An operand of at most 8 bits fits the byte that holds it. -/
@[simp] theorem fit_zext8 {w : Nat} (hw : w ≤ 8) (v : BitVec w) : fit w (zext8 v) = .ok v := by
  have h2 : (2 : Nat) ^ w ≤ 2 ^ 8 := Nat.pow_le_pow_right (by omega) hw
  have hv := v.isLt
  have hz : (zext8 v).toNat = v.toNat := by
    rw [zext8, BitVec.toNat_setWidth, Nat.mod_eq_of_lt (by omega)]
  rw [fit, hz, if_pos hv]
  congr 1
  apply BitVec.eq_of_toNat_eq
  rw [BitVec.toNat_setWidth, hz, Nat.mod_eq_of_lt hv]

/-- A byte that fits is the byte that holds its operand. -/
theorem fit_eq_ok {w : Nat} {b : Byte} {v : BitVec w} (h : fit w b = .ok v) : b = zext8 v := by
  unfold fit at h
  split at h
  · cases h
    apply BitVec.eq_of_toNat_eq
    have := b.isLt
    simp only [zext8, BitVec.toNat_setWidth]
    rw [Nat.mod_eq_of_lt (a := b.toNat) (by assumption), Nat.mod_eq_of_lt (by omega)]
  · cases h

@[simp] theorem takeField_zext8 {w : Nat} (hw : w ≤ 8) (v : BitVec w) (rest : List Byte) :
    takeField w (zext8 v :: rest) = .ok (v, rest) := by
  simp [takeField, hw]

@[simp] theorem takeField_byte (v : Byte) (rest : List Byte) : takeField 8 (v :: rest) = .ok (v, rest) := by
  have h : fit 8 v = .ok v := by simpa [zext8] using fit_zext8 (Nat.le_refl 8) v
  simp [takeField, h]

theorem takeField_eq_ok {w : Nat} {bytes rest : List Byte} {v : BitVec w} (h : takeField w bytes = .ok (v, rest)) :
    bytes = zext8 v :: rest := by
  unfold takeField at h
  split at h
  · cases h
  · split at h
    · next hf =>
      cases h
      rw [fit_eq_ok hf]
    · cases h

@[simp] theorem zext8_byte (v : Byte) : zext8 v = v := by simp [zext8]

@[simp] theorem timeOfBytes_timeBytes (t : Time) :
    timeOfBytes (t.extractLsb' 0 8) (t.extractLsb' 8 8) (t.extractLsb' 16 8) (t.extractLsb' 24 8) = t := by
  apply BitVec.eq_of_getLsbD_eq
  intro i hi
  simp only [timeW] at hi
  simp only [timeOfBytes, BitVec.getLsbD_append, BitVec.getLsbD_extractLsb']
  interval_cases i <;> simp

theorem timeBytes_timeOfBytes (b0 b1 b2 b3 : Byte) : timeBytes (timeOfBytes b0 b1 b2 b3) = [b0, b1, b2, b3] := by
  simp only [timeBytes, timeOfBytes, List.cons.injEq, and_true]
  refine ⟨?_, ?_, ?_, ?_⟩ <;>
  · apply BitVec.eq_of_getLsbD_eq
    intro i hi
    simp only [BitVec.getLsbD_append, BitVec.getLsbD_extractLsb']
    interval_cases i <;> simp

@[simp] theorem takeTime_timeBytes (t : Time) (rest : List Byte) : takeTime (timeBytes t ++ rest) = .ok (t, rest) := by
  simp [timeBytes, takeTime]

theorem takeTime_eq_ok {bytes rest : List Byte} {t : Time} (h : takeTime bytes = .ok (t, rest)) :
    bytes = timeBytes t ++ rest := by
  unfold takeTime at h
  split at h
  · cases h
    rw [timeBytes_timeOfBytes]
    rfl
  · cases h

/-- A counted byte sequence, whose count fits, is read back. -/
theorem takeBytes_countedBytes {w : Nat} (hw : w ≤ 8) {bytes : List Byte} (h : bytes.length < 2 ^ w) :
    takeBytes w (countedBytes bytes) = .ok (bytes, []) := by
  have h2 : (2 : Nat) ^ w ≤ 2 ^ 8 := Nat.pow_le_pow_right (by omega) hw
  have hc : BitVec.ofNat 8 bytes.length = zext8 (BitVec.ofNat w bytes.length) := by
    apply BitVec.eq_of_toNat_eq
    simp only [zext8, BitVec.toNat_setWidth, BitVec.toNat_ofNat]
    rw [Nat.mod_eq_of_lt h]
  rw [takeBytes, countedBytes, hc, takeField_zext8 hw]
  simp [bind, Except.bind, Nat.mod_eq_of_lt h]

/-- Bytes that read as a whole counted sequence are its count and its bytes. -/
theorem takeBytes_eq_ok {w : Nat} {bytes bs : List Byte} (h : takeBytes w bytes = .ok (bs, [])) :
    bytes = countedBytes bs := by
  unfold takeBytes at h
  cases hf : takeField w bytes with
  | error e => simp [hf, bind, Except.bind] at h
  | ok p =>
    obtain ⟨n, rest⟩ := p
    have hb := takeField_eq_ok hf
    simp only [hf, bind, Except.bind] at h
    split at h
    · next hle =>
      simp only [Except.ok.injEq, Prod.mk.injEq, List.drop_eq_nil_iff] at h
      obtain ⟨h1, h3⟩ := h
      have hn : n.toNat = rest.length := by omega
      rw [hn, List.take_length] at h1
      subst h1
      rw [hb, countedBytes]
      congr 1
      apply BitVec.eq_of_toNat_eq
      rw [zext8, BitVec.toNat_setWidth, BitVec.toNat_ofNat, hn]
    · cases h

end Sys2Proof.Laws
end

