-- ==== Sys2Proof/Laws/Exec.lean ====
section
/-! SUPPORT. What an operation and a step can do when they answer a next state, said once. -/

namespace Sys2Proof.Laws

open Sys2Proof.Machine Sys2Proof.Safety

/-- The buffer is in canonical form after reset; `memWrite_spec` says that a write keeps it, and every other operation that
reaches the buffer clears it (`memory_wf_nil`). -/
theorem reset_memory_wf : Memory.wf State.reset.rxbuf = true := rfl

/-! ### The host operations -/

theorem withSlot_eq_next {k : Byte} {s t : State} {f : Slot → Answer} (h : withSlot k s f = .next t) :
    ∃ sl, s.slots[k.toNat]? = some sl ∧ f sl = .next t := by
  unfold withSlot at h
  split at h
  · cases h
  · next sl hk => exact ⟨sl, hk, h⟩

/-- A state-change request that answers a next state writes the commanded fields and PEND of its slot. -/
theorem changeZone_eq_next {k : Byte} {vmode : BitVec 3} {fan : BitVec 2} {swing : Bit} {target : Byte} {s t : State}
    (h : changeZone k vmode fan swing target s = .next t) :
    ∃ sl p m, s.slots[k.toNat]? = some sl ∧ encMode vmode sl.mode = some (p, m) ∧
      t = setSlot k.toNat (setPend true (commandSlot p m fan swing target sl)) s := by
  obtain ⟨sl, hk, hf⟩ := withSlot_eq_next h
  split at hf
  · cases hf
  · next p m he =>
    cases hf
    exact ⟨sl, p, m, hk, he, rfl⟩

/-- SEED_ZONE that answers a next state comes before the first TICK and writes the commanded fields of its slot. -/
theorem execSeedZone_eq_next {k : Byte} {vmode : BitVec 3} {fan : BitVec 2} {swing : Bit} {target : Byte} {s t : State}
    (h : execSeedZone k vmode fan swing target s = .next t) :
    ∃ sl p m, s.slots[k.toNat]? = some sl ∧ encMode vmode sl.mode = some (p, m) ∧ s.run = false ∧
      t = setSlot k.toNat (commandSlot p m fan swing target sl) s := by
  obtain ⟨sl, hk, hf⟩ := withSlot_eq_next h
  split at hf
  · cases hf
  · next p m he =>
    split at hf
    · cases hf
    · next hr =>
      cases hf
      exact ⟨sl, p, m, hk, he, by simpa using hr, rfl⟩

/-- Replacing a slot by one with its zone id keeps the zone ids. -/
theorem map_zid_set {slots : List Slot} {k : Nat} {sl sl' : Slot} (hk : slots[k]? = some sl) (hz : sl'.zid = sl.zid) :
    (slots.set k sl').map (·.zid) = slots.map (·.zid) := by
  rw [List.map_set, hz]
  apply List.ext_getElem?
  intro j
  rw [List.getElem?_set, List.getElem?_map]
  by_cases hj : k = j
  · subst hj
    simp [hk]
    exact (List.getElem?_eq_some_iff.1 hk).1
  · simp [hj]

/-! ### Sequences of bytes -/

theorem rxBytes_append (xs ys : List Byte) (s : State) :
    rxBytes (xs ++ ys) s = andThen (rxBytes xs s) (rxBytes ys) := by
  induction xs generalizing s with
  | nil => rfl
  | cons b xs ih =>
    simp only [List.cons_append, rxBytes]
    cases execRxByte b s <;> simp [andThen, ih]

/-- A sequence of bytes does what the RX_BYTE operations do one after another. -/
theorem execAll_rxByte (bytes : List Byte) (s : State) : execAll (bytes.map .rxByte) s = rxBytes bytes s := by
  induction bytes generalizing s with
  | nil => rfl
  | cons b bytes ih =>
    simp only [List.map_cons, execAll, rxBytes, exec]
    cases execRxByte b s <;> simp [andThen, ih]

/-! ### Any operation, and a step -/

/-- What an operation that answers a next state did: one of the state operations, a sequence of them, or a returned value. -/
theorem exec_cases {i : Instr} {s t : State} (h : exec i s = .next t) :
    (i = .reset ∧ configRefused s = false ∧ t = resetRegs s) ∨
    (∃ now, i = .tick now ∧ t = tick now s) ∨
    (∃ b, i = .rxByte b ∧ execRxByte b s = .next t) ∨
    (∃ k vmode fan swing target,
      (i = .setZone k vmode fan swing target ∨ i = .requestChange k vmode fan swing target) ∧
      changeZone k vmode fan swing target s = .next t) ∨
    (∃ k vmode fan swing target, i = .seedZone k vmode fan swing target ∧
      execSeedZone k vmode fan swing target s = .next t) ∨
    (∃ k e, i = .getZone k ∧ (∀ b, e ≠ .txByte b) ∧ t = emit e s) ∨
    (∃ now bytes u, i = .drive now bytes ∧ rxBytes (bytes.take s.cfg.rxMax) s = .next u ∧
      t = { tick now u with held := bytes.drop s.cfg.rxMax }) ∨
    (∃ bytes, i = .frameResp bytes ∧ rxBytes bytes s = .next t) ∨
    ((∀ now bytes, i ≠ .drive now bytes) ∧ (∀ now, i ≠ .tick now) ∧ (∀ bytes, i ≠ .frameResp bytes) ∧
      (∀ b, i ≠ .rxByte b) ∧ i ≠ .reset ∧ ∃ r, t = { s with result := some r }) := by
  cases i
  case reset =>
    simp only [exec, execReset] at h
    split at h
    · cases h
    · next hc =>
      cases h
      exact .inl ⟨rfl, by simpa using hc, rfl⟩
  case tick now =>
    cases h
    exact .inr (.inl ⟨now, rfl, rfl⟩)
  case rxByte b => exact .inr (.inr (.inl ⟨b, rfl, h⟩))
  case setZone k vmode fan swing target =>
    exact .inr (.inr (.inr (.inl ⟨k, vmode, fan, swing, target, .inl rfl, h⟩)))
  case requestChange k vmode fan swing target =>
    exact .inr (.inr (.inr (.inl ⟨k, vmode, fan, swing, target, .inr rfl, h⟩)))
  case seedZone k vmode fan swing target =>
    exact .inr (.inr (.inr (.inr (.inl ⟨k, vmode, fan, swing, target, rfl, h⟩))))
  case getZone k =>
    obtain ⟨sl, -, hf⟩ := withSlot_eq_next h
    cases hf
    exact .inr (.inr (.inr (.inr (.inr (.inl ⟨k, _, rfl, by simp, rfl⟩)))))
  case drive now bytes =>
    obtain ⟨u, hu, ht⟩ := andThen_eq_next h
    cases ht
    exact .inr (.inr (.inr (.inr (.inr (.inr (.inl ⟨now, bytes, u, rfl, hu, rfl⟩))))))
  case frameResp bytes =>
    simp only [exec, execFrameResp] at h
    split at h
    · exact .inr (.inr (.inr (.inr (.inr (.inr (.inr (.inl ⟨bytes, rfl, h⟩)))))))
    · cases h
  all_goals
    refine .inr (.inr (.inr (.inr (.inr (.inr (.inr (.inr ⟨by simp, by simp, by simp, by simp, by simp, ?_⟩)))))))
  case decodeResponse bytes =>
    simp only [exec, execDecodeResponse] at h
    split at h
    · split at h <;> exact ⟨_, (Host.Outcome.next.inj h).symm⟩
    · cases h
  case encMode vmode prev =>
    simp only [exec, execEncMode] at h
    split at h
    · cases h
    · split at h
      · exact ⟨_, (Host.Outcome.next.inj h).symm⟩
      · cases h
  all_goals
    simp only [exec, execChecksum, execVerifyChecksum, execEncodeRequest, execDecMode, execEncFan, execDecFan, execEncSwing,
      execDecSwing, execPackStatus, execPackMsf, execEncTarget, execDecTarget, execDecCurtemp, execCorrelate, execFrameReq,
      returns] at h
    first
    | exact ⟨_, (Host.Outcome.next.inj h).symm⟩
    | (split at h
       · exact ⟨_, (Host.Outcome.next.inj h).symm⟩
       · cases h)

/-- A step that answers a next state waited, or performed the operation it fetched. -/
theorem step_cases {s t : State} (h : step s = .next t) :
    (s.input = [] ∧ t = s) ∨
    ∃ r rest i, s.input = r :: rest ∧ configRefused s = false ∧ decode s.cfg r = .ok i ∧
      exec i { s with input := rest } = .next t := by
  unfold step fetch at h
  split at h
  · next hf =>
    cases h
    split at hf
    · next hi => exact .inl ⟨hi, rfl⟩
    · split at hf
      · cases hf
      · split at hf <;> cases hf
  · next i u hf =>
    split at hf
    · cases hf
    · next r rest hi =>
      split at hf
      · cases hf
      · next hc =>
        split at hf
        · cases hf
        · next j hd =>
          cases hf
          exact .inr ⟨r, rest, _, hi, by simpa using hc, hd, h⟩
  · cases h

end Sys2Proof.Laws
end

