-- ==== Sys2Proof/Laws/PerInstr.lean ====
section
/-! SUPPORT. One lemma for each constructor of `Instr`: the encoder gives the row's format and its `match` byte. -/

namespace Sys2Proof.Laws

/-- The format of a row of spec/opcode_table.json and, for an operation record, its `match` byte. -/
def tableKey : Instr → Format × Option Byte
  | .reset => (.op, some 0x00)
  | .tick _ => (.op, some 0x01)
  | .rxByte _ => (.op, some 0x02)
  | .setZone _ _ _ _ _ => (.op, some 0x03)
  | .seedZone _ _ _ _ _ => (.op, some 0x04)
  | .getZone _ => (.op, some 0x05)
  | .checksum _ => (.op, some 0x10)
  | .verifyChecksum _ => (.op, some 0x11)
  | .encodeRequest _ _ _ _ _ _ _ _ => (.op, some 0x12)
  | .decodeResponse _ => (.op, some 0x13)
  | .encMode _ _ => (.op, some 0x14)
  | .decMode _ _ => (.op, some 0x15)
  | .encFan _ => (.op, some 0x16)
  | .decFan _ => (.op, some 0x17)
  | .encSwing _ => (.op, some 0x18)
  | .decSwing _ => (.op, some 0x19)
  | .packStatus _ _ => (.op, some 0x1A)
  | .packMsf _ _ _ => (.op, some 0x1B)
  | .encTarget _ => (.op, some 0x1C)
  | .decTarget _ => (.op, some 0x1D)
  | .decCurtemp _ => (.op, some 0x1E)
  | .correlate _ _ _ _ => (.op, some 0x1F)
  | .requestChange _ _ _ _ _ => (.op, some 0x03)
  | .drive _ _ => (.pseudo, none)
  | .frameReq _ _ _ _ _ _ _ _ => (.req, none)
  | .frameResp _ => (.resp, none)

/-- The record of an instruction has the row's format and, where the row has one, its `match` byte first (30_encoding.md R100). -/
def EncodeShape.Statement (i : Instr) : Prop :=
  ∀ c : Config, (encode c i).fmt = (tableKey i).1 ∧ ∀ op, (tableKey i).2 = some op → (encode c i).bytes.head? = some op

theorem EncodeShape.reset : EncodeShape.Statement (.reset) :=
  fun _ => ⟨rfl, fun _ h => h⟩

theorem EncodeShape.tick (now : Time) : EncodeShape.Statement (.tick now) :=
  fun _ => ⟨rfl, fun _ h => h⟩

theorem EncodeShape.rxByte (b : Byte) : EncodeShape.Statement (.rxByte b) :=
  fun _ => ⟨rfl, fun _ h => h⟩

theorem EncodeShape.setZone (k : Byte) (vmode : BitVec 3) (fan : BitVec 2) (swing : Bit) (target : Byte) : EncodeShape.Statement (.setZone k vmode fan swing target) :=
  fun _ => ⟨rfl, fun _ h => h⟩

theorem EncodeShape.seedZone (k : Byte) (vmode : BitVec 3) (fan : BitVec 2) (swing : Bit) (target : Byte) : EncodeShape.Statement (.seedZone k vmode fan swing target) :=
  fun _ => ⟨rfl, fun _ h => h⟩

theorem EncodeShape.getZone (k : Byte) : EncodeShape.Statement (.getZone k) :=
  fun _ => ⟨rfl, fun _ h => h⟩

theorem EncodeShape.checksum (bytes : List Byte) : EncodeShape.Statement (.checksum bytes) :=
  fun _ => ⟨rfl, fun _ h => h⟩

theorem EncodeShape.verifyChecksum (bytes : List Byte) : EncodeShape.Statement (.verifyChecksum bytes) :=
  fun _ => ⟨rfl, fun _ h => h⟩

theorem EncodeShape.encodeRequest (zone reqId : Byte) (write power : Bit) (mode : BitVec 3) (swing : Bit) (fan : BitVec 2) (target : Byte) : EncodeShape.Statement (.encodeRequest zone reqId write power mode swing fan target) :=
  fun _ => ⟨rfl, fun _ h => h⟩

theorem EncodeShape.decodeResponse (bytes : List Byte) : EncodeShape.Statement (.decodeResponse bytes) :=
  fun _ => ⟨rfl, fun _ h => h⟩

theorem EncodeShape.encMode (vmode prev : BitVec 3) : EncodeShape.Statement (.encMode vmode prev) :=
  fun _ => ⟨rfl, fun _ h => h⟩

theorem EncodeShape.decMode (power : Bit) (mode : BitVec 3) : EncodeShape.Statement (.decMode power mode) :=
  fun _ => ⟨rfl, fun _ h => h⟩

theorem EncodeShape.encFan (fan : BitVec 2) : EncodeShape.Statement (.encFan fan) :=
  fun _ => ⟨rfl, fun _ h => h⟩

theorem EncodeShape.decFan (fanBits : BitVec 3) : EncodeShape.Statement (.decFan fanBits) :=
  fun _ => ⟨rfl, fun _ h => h⟩

theorem EncodeShape.encSwing (swing : Bit) : EncodeShape.Statement (.encSwing swing) :=
  fun _ => ⟨rfl, fun _ h => h⟩

theorem EncodeShape.decSwing (swingBit : Bit) : EncodeShape.Statement (.decSwing swingBit) :=
  fun _ => ⟨rfl, fun _ h => h⟩

theorem EncodeShape.packStatus (write power : Bit) : EncodeShape.Statement (.packStatus write power) :=
  fun _ => ⟨rfl, fun _ h => h⟩

theorem EncodeShape.packMsf (mode : BitVec 3) (swing : Bit) (fan : BitVec 2) : EncodeShape.Statement (.packMsf mode swing fan) :=
  fun _ => ⟨rfl, fun _ h => h⟩

theorem EncodeShape.encTarget (target : Byte) : EncodeShape.Statement (.encTarget target) :=
  fun _ => ⟨rfl, fun _ h => h⟩

theorem EncodeShape.decTarget (tempByte : Byte) : EncodeShape.Statement (.decTarget tempByte) :=
  fun _ => ⟨rfl, fun _ h => h⟩

theorem EncodeShape.decCurtemp (b : Byte) : EncodeShape.Statement (.decCurtemp b) :=
  fun _ => ⟨rfl, fun _ h => h⟩

theorem EncodeShape.correlate (respZone respId lastZone lastId : Byte) : EncodeShape.Statement (.correlate respZone respId lastZone lastId) :=
  fun _ => ⟨rfl, fun _ h => h⟩

theorem EncodeShape.requestChange (k : Byte) (vmode : BitVec 3) (fan : BitVec 2) (swing : Bit) (target : Byte) : EncodeShape.Statement (.requestChange k vmode fan swing target) :=
  fun _ => ⟨rfl, fun _ h => h⟩

theorem EncodeShape.drive (now : Time) (bytes : List Byte) : EncodeShape.Statement (.drive now bytes) :=
  fun _ => ⟨rfl, fun _ h => by cases h⟩

theorem EncodeShape.frameReq (reqId zone : Byte) (write power : Bit) (fan : BitVec 2) (swing : Bit) (mode : BitVec 3) (temp : Byte) : EncodeShape.Statement (.frameReq reqId zone write power fan swing mode temp) :=
  fun _ => ⟨rfl, fun _ h => by cases h⟩

theorem EncodeShape.frameResp (bytes : List Byte) : EncodeShape.Statement (.frameResp bytes) :=
  fun _ => ⟨rfl, fun _ h => by cases h⟩

end Sys2Proof.Laws
end

