-- ==== Sys2Proof/Tests/Slice0.lean ====
section
/-! SUPPORT. Tests. Every expected value is from a rule or a vector of spec/ (95_test_vectors.md), or worked out by hand from
one. Then a witness for every obligation that has hypotheses. -/

namespace Sys2Proof.Tests

set_option Elab.async false

open Sys2Proof Sys2Proof.Machine Sys2Proof.Safety Sys2Proof.Laws

/-- The next state, where there is one. -/
def got : Answer → Option State
  | .next t => some t
  | .fault _ => none
  | .refused _ => none

/-- There is a next state, and it passes a test. -/
def goes (o : Answer) (p : State → Bool) : Bool := (got o).any p

/-- The returned value, where there is one. -/
def value (o : Answer) : Option Result := (got o).bind (·.result)

/-- The refusal, where there is one. -/
def refusal : Answer → Option Refusal
  | .next _ => none
  | .fault _ => none
  | .refused r => some r

/-- T0 with `TRUNC_BYTE`. -/
def truncReset : State := State.resetOf { Config.t0 with tempPolicy := .truncByte } Config.t0Zids

/-- After a poll of zone 3 at 100, with request id 0. -/
def awaiting : State :=
  { State.reset with st := .awaitResponse, run := true, rr := 0, pollTs := 100, txTs := 100, seq := 1, lastZone := 3 }

/-- Receiving, with some bytes of a frame in the buffer. -/
def receiving (buf : Memory) (count : BitVec 5) : State := { awaiting with st := .receiving, rxbuf := buf, rxcnt := count }

/-- The first fifteen bytes of the response of program P1. -/
def frame15 : Memory := [(0, 0x10), (1, 0x01), (4, 0x03), (6, 0x24), (7, 0x09), (8, 0x40)]

/-- The response of program P1. -/
def frameP1 : List Byte := [0x10, 1, 0, 0, 3, 0, 0x24, 9, 0x40, 0, 0, 0, 0, 0, 0, 0xD4]

/-- A slot of T0 after reset. -/
def slotOfZone (z : Int) : Slot := Slot.reset 16 z

/-- T0 after SET_ZONE on slot 0: one pending write. -/
def pendingWrite : State := { State.reset with slots := [setPend true (slotOfZone 3), slotOfZone 5, slotOfZone (-1)] }

/-- What a slot commands, and PEND. -/
def commands (k : Nat) (s : State) : Option (Bit × BitVec 3 × BitVec 2 × Bit × Byte × Bool) :=
  (s.slots[k]?).map fun sl => (sl.power, sl.mode, sl.fan, sl.swing, sl.target, sl.pend)

/-! ### WellFormed: an ill-formed term for each check -/

theorem test_ill_formed_setZone : (Instr.setZone 0 6 0 0 24).wellFormed Config.t0 = false := by decide
theorem test_ill_formed_seedZone : (Instr.seedZone 0 7 0 0 24).wellFormed Config.t0 = false := by decide
theorem test_ill_formed_requestChange : (Instr.requestChange 0 6 0 0 24).wellFormed Config.t0 = false := by decide
theorem test_ill_formed_checksum : (Instr.checksum []).wellFormed Config.t0 = false := by decide
theorem test_ill_formed_verifyChecksum : (Instr.verifyChecksum (List.replicate 17 0)).wellFormed Config.t0 = false := by decide
theorem test_ill_formed_encodeRequest_mode : (Instr.encodeRequest 3 0 1 1 5 0 0 24).wellFormed Config.t0 = false := by decide
theorem test_ill_formed_encodeRequest_fan : (Instr.encodeRequest 3 0 1 1 0 0 3 24).wellFormed Config.t0 = false := by decide
theorem test_ill_formed_decodeResponse : (Instr.decodeResponse (List.replicate 17 0)).wellFormed Config.t0 = false := by decide
theorem test_ill_formed_encMode : (Instr.encMode 6 0).wellFormed Config.t0 = false := by decide
theorem test_ill_formed_encMode_prev : (Instr.encMode 0 5).wellFormed Config.t0 = false := by decide
theorem test_ill_formed_packMsf_mode : (Instr.packMsf 5 0 0).wellFormed Config.t0 = false := by decide
theorem test_ill_formed_packMsf_fan : (Instr.packMsf 0 0 3).wellFormed Config.t0 = false := by decide
theorem test_ill_formed_drive : (Instr.drive 0 (List.replicate 256 0)).wellFormed Config.t0 = false := by decide +kernel
theorem test_ill_formed_frameReq_mode : (Instr.frameReq 0 3 0 0 0 0 5 0).wellFormed Config.t0 = false := by decide
theorem test_ill_formed_frameReq_fan : (Instr.frameReq 0 3 0 0 3 0 0 0).wellFormed Config.t0 = false := by decide
theorem test_ill_formed_frameReq_temp : (Instr.frameReq 0 3 0 0 0 0 0 16).wellFormed Config.t0 = false := by decide
theorem test_ill_formed_frameResp_length : (Instr.frameResp [0x10]).wellFormed Config.t0 = false := by decide
theorem test_ill_formed_frameResp_start : (Instr.frameResp (List.replicate 16 0)).wellFormed Config.t0 = false := by decide

/-! ### Decode: words written out from 30_encoding.md R81, R86, R101 and R104 -/

theorem test_decode_reset : decodeTableWord 8 0x00 = some .reset := by decide +kernel
theorem test_decode_tick : decodeTableWord 40 0x000000C801 = some (.tick 200) := by decide +kernel
theorem test_decode_rxByte : decodeTableWord 16 0x7E02 = some (.rxByte 0x7E) := by decide +kernel
theorem test_decode_setZone : decodeTableWord 48 0x150101000103 = some (.setZone 1 0 1 1 21) := by decide +kernel
theorem test_decode_seedZone : decodeTableWord 48 0x180000040004 = some (.seedZone 0 4 0 0 24) := by decide +kernel
theorem test_decode_getZone : decodeTableWord 16 0x0105 = some (.getZone 1) := by decide +kernel
theorem test_decode_checksum : decodeTableWord 32 0x00120210 = some (.checksum [0x12, 0x00]) := by decide +kernel
theorem test_decode_verifyChecksum : decodeTableWord 32 0x47120211 = some (.verifyChecksum [0x12, 0x47]) := by decide +kernel
theorem test_decode_encodeRequest :
    decodeTableWord 72 0x160201040100000312 = some (.encodeRequest 3 0 0 1 4 1 2 22) := by decide +kernel
theorem test_decode_decodeResponse : decodeTableWord 32 0x01100213 = some (.decodeResponse [0x10, 0x01]) := by decide +kernel
theorem test_decode_encMode : decodeTableWord 24 0x040514 = some (.encMode 5 4) := by decide +kernel
theorem test_decode_decMode : decodeTableWord 24 0x070115 = some (.decMode 1 7) := by decide +kernel
theorem test_decode_encFan : decodeTableWord 16 0x0316 = some (.encFan 3) := by decide +kernel
theorem test_decode_decFan : decodeTableWord 16 0x0717 = some (.decFan 7) := by decide +kernel
theorem test_decode_encSwing : decodeTableWord 16 0x0118 = some (.encSwing 1) := by decide +kernel
theorem test_decode_decSwing : decodeTableWord 16 0x0119 = some (.decSwing 1) := by decide +kernel
theorem test_decode_packStatus : decodeTableWord 24 0x00011A = some (.packStatus 1 0) := by decide +kernel
theorem test_decode_packMsf : decodeTableWord 32 0x0201041B = some (.packMsf 4 1 2) := by decide +kernel
theorem test_decode_encTarget : decodeTableWord 16 0x181C = some (.encTarget 24) := by decide +kernel
theorem test_decode_decTarget : decodeTableWord 16 0xF01D = some (.decTarget 0xF0) := by decide +kernel
theorem test_decode_decCurtemp : decodeTableWord 16 0x401E = some (.decCurtemp 0x40) := by decide +kernel
theorem test_decode_correlate : decodeTableWord 40 0x070306051F = some (.correlate 5 6 3 7) := by decide +kernel

/-- REQUEST_CHANGE has the record of SET_ZONE (R106). -/
theorem test_decode_requestChange :
    decode Config.t0 (encode Config.t0 (.requestChange 1 0 1 1 21)) = .ok (.setZone 1 0 1 1 21) := by decide +kernel

theorem test_decode_drive :
    decode Config.t0 ⟨.pseudo, [0x78, 0, 0, 0, 2, 0x7E, 0x10]⟩ = .ok (.drive 120 [0x7E, 0x10]) := by decide +kernel

/-- The request of source scenario 2: `[00 00 00 03 03 00 09 5A]`. -/
theorem test_decode_frameReq :
    decodeTableWord 64 0x5A09000303000000 = some (.frameReq 0 3 1 1 0 0 0 9) := by decide +kernel

theorem test_decode_frameResp :
    decodeTableWord 128 0xD400000000000040092400030000_0110 = some (.frameResp frameP1) := by decide +kernel

theorem test_decode_unknown_opcode : decodeTableWord 8 0x06 = none := by decide +kernel
theorem test_decode_wide_operand : decode Config.t0 ⟨.op, [0x16, 4]⟩ = .error .operandTooWide := by decide +kernel
theorem test_decode_missing : decode Config.t0 ⟨.op, [0x05]⟩ = .error .missingBytes := by decide +kernel
theorem test_decode_trailing : decode Config.t0 ⟨.op, [0x00, 0x00]⟩ = .error .trailingBytes := by decide +kernel
theorem test_decode_bad_checksum : decode Config.t0 ⟨.req, [0, 0, 0, 3, 3, 0, 9, 0x5B]⟩ = .error .badChecksum := by
  decide +kernel
theorem test_decode_reserved_bits : decode Config.t0 ⟨.req, [0, 0, 0, 3, 7, 0, 9, 0x5E]⟩ = .error .reservedBits := by
  decide +kernel
theorem test_decode_bad_header : decode Config.t0 ⟨.req, [1, 0, 0, 3, 3, 0, 9, 0x5B]⟩ = .error .badHeader := by decide +kernel

/-! ### One step on the record presented next -/

theorem test_step_reset : (got (step (awaiting.withFetchWord 8 0x00))).map (·.st) = some .idle := by decide +kernel
theorem test_step_correlate :
    value (step (State.reset.withFetchWord 40 0x070306031F)) = some (.correlated true) := by decide +kernel
theorem test_step_waits : got (step State.reset) = some State.reset := by decide +kernel
theorem test_step_unknown_opcode :
    refusal (step (State.reset.withFetchWord 8 0x06)) = some (.badRecord .unknownOpcode) := by decide +kernel
theorem test_step_duplicate_ids :
    refusal (step ((State.resetOf Config.t0 [3, 3]).withFetchWord 8 0x00)) = some .configuration := by decide +kernel

/-! ### TICK (95_test_vectors.md 3.2) -/

theorem test_tick_polls :
    goes (exec (.tick 100) State.reset) (fun t => t.st = .awaitResponse && t.rr = 0 && t.pollTs = 100 && t.txTs = 100 &&
      t.seq = 1 && t.lastId = 0 && t.lastZone = 3 && t.trace = transmission [0, 0, 0, 3, 0, 0, 1, 0x51]) = true := by
  decide +kernel
theorem test_tick_deadline_wraps :
    goes (exec (.tick 0x22) { awaiting with txTs := 0xFFFFFFF0 }) (fun t => t.st = .idle && t.trace = [.err 4 0]) = true := by
  decide +kernel

/-! ### RX_BYTE (3.3) -/

theorem test_rxByte_dispatches :
    goes (exec (.rxByte 0xD4) (receiving frame15 15)) (fun t => t.st = .idle && t.trace = [.publish 0] &&
      commands 0 t = some (1, 4, 2, 0, 24, false) && (t.slots[0]?).map (·.cur) = some 45) = true := by decide +kernel
theorem test_rxByte_invalid_fields :
    goes (exec (.rxByte 0xC1) (receiving [(0, 0x10), (1, 1), (4, 3), (6, 0x37), (7, 9), (8, 0x40)] 15))
      (fun t => t.trace = [.err 6 0, .err 6 1, .publish 0] && commands 0 t = some (0, 0, 0, 0, 24, false)) = true := by
  decide +kernel

/-! ### DRIVE (3.4) -/

theorem test_drive_leaves_bytes_beyond_rx_max :
    goes (exec (.drive 120 (0x7E :: frameP1)) awaiting)
      (fun t => t.st = .receiving && t.rxcnt = 15 && t.trace = [] && t.held = [0xD4]) = true := by decide +kernel
theorem test_drive_frame_before_deadline :
    goes (exec (.drive 150 [0xD4]) (receiving frame15 15)) (fun t => t.st = .idle && t.trace = [.publish 0]) = true := by
  decide +kernel

/-! ### Host operations (section 4) -/

theorem test_setZone : (got (exec (.setZone 0 0 0 0 24) State.reset)).bind (commands 0) = some (1, 0, 0, 0, 24, true) := by
  decide +kernel
theorem test_setZone_out_of_registry : refusal (exec (.setZone 3 0 0 0 24) State.reset) = some .slotOutOfRange := by decide +kernel
theorem test_requestChange_auto_fan :
    (got (exec (.requestChange 0 4 3 0 40) State.reset)).bind (commands 0) = some (1, 4, 0, 0, 40, true) := by decide +kernel
theorem test_seedZone :
    (got (exec (.seedZone 0 5 2 1 22) State.reset)).bind (commands 0) = some (0, 0, 2, 1, 22, false) := by decide +kernel
theorem test_seedZone_after_tick : refusal (exec (.seedZone 0 0 0 0 24) awaiting) = some .seedAfterTick := by decide +kernel
theorem test_getZone :
    (got (exec (.getZone 0) pendingWrite)).map (·.trace) = some [.getResult 0 5 0 0 16 none true] := by decide +kernel
theorem test_reset_abandons_cycle :
    goes (exec .reset (receiving frame15 15)) (fun t => t.st = .idle && t.rxcnt = 0 && t.rxbuf = [] && t.rr = 2 &&
      t.run = false && t.trace = []) = true := by decide +kernel

/-! ### Combinational operations (section 2) -/

theorem test_checksum_wraps : value (exec (.checksum [0xFF, 0xFF, 0xFF, 0x00]) State.reset) = some (.checksum 0xA8) := by
  decide +kernel
theorem test_checksum_none : refusal (exec (.checksum []) State.reset) = some .byteCount := by decide +kernel
theorem test_verifyChecksum_good : value (exec (.verifyChecksum frameP1) State.reset) = some (.verified true) := by decide +kernel
theorem test_verifyChecksum_zeros :
    value (exec (.verifyChecksum (List.replicate 16 0)) State.reset) = some (.verified false) := by decide +kernel
theorem test_encodeRequest :
    value (exec (.encodeRequest 3 7 0 1 4 1 2 22) State.reset) = some (.request [0, 0, 7, 3, 1, 0x2C, 7, 0x6B]) := by
  decide +kernel
theorem test_encodeRequest_truncates :
    value (exec (.encodeRequest 3 1 1 1 1 0 2 34) truncReset) = some (.request [0, 0, 1, 3, 3, 0x21, 0x13, 0x6E]) := by
  decide +kernel
theorem test_decodeResponse :
    value (exec (.decodeResponse [0x10, 0xFF, 7, 0xAA, 5, 0xBB, 0xFF, 0xF6, 0]) State.reset) = some (.fields
      { zoneId := 5, requestId := 7, power := 1, modeBits := 7, swingBit := 1, fanBits := 7, targetRaw := 6, curRaw := 0 }) := by
  decide +kernel
theorem test_decodeResponse_short :
    value (exec (.decodeResponse [0x10, 1, 0, 0, 3, 0, 0x24, 9]) State.reset) = some (.error .frameTooShort) := by decide +kernel
theorem test_encMode_off : value (exec (.encMode 5 4) State.reset) = some (.encMode 0 4) := by decide +kernel
theorem test_encMode_refused : refusal (exec (.encMode 6 0) State.reset) = some .hostVmode := by decide +kernel
theorem test_decMode_invalid :
    value (exec (.decMode 1 5) State.reset) = some (.decMode 5 (some (.invalidModeOrFanOrSwingValue .mode))) := by decide +kernel
theorem test_decMode_off : value (exec (.decMode 0 7) State.reset) = some (.decMode 5 none) := by decide +kernel
theorem test_encFan_auto : value (exec (.encFan 3) State.reset) = some (.encFan 0) := by decide +kernel
theorem test_decFan : value (exec (.decFan 2) State.reset) = some (.decFan (some 2) none) := by decide +kernel
theorem test_decFan_invalid :
    value (exec (.decFan 3) State.reset) = some (.decFan none (some (.invalidModeOrFanOrSwingValue .fan))) := by decide +kernel
theorem test_encSwing : value (exec (.encSwing 1) State.reset) = some (.encSwing 1) := by decide +kernel
theorem test_decSwing : value (exec (.decSwing 1) State.reset) = some (.decSwing 1) := by decide +kernel
theorem test_packStatus : value (exec (.packStatus 1 0) State.reset) = some (.status 0x02) := by decide +kernel
theorem test_packMsf : value (exec (.packMsf 4 1 2) State.reset) = some (.msf 0x2C) := by decide +kernel
theorem test_encTarget_clamps : value (exec (.encTarget 34) State.reset) = some (.tempByte 15) := by decide +kernel
theorem test_encTarget_truncates : value (exec (.encTarget 10) truncReset) = some (.tempByte 0xFB) := by decide +kernel
theorem test_decTarget : value (exec (.decTarget 0xF0) State.reset) = some (.target 15) := by decide +kernel
theorem test_decCurtemp_half : value (exec (.decCurtemp 0xE0) State.reset) = some (.curTemp (-18)) := by decide +kernel
theorem test_decCurtemp_zero : value (exec (.decCurtemp 180) State.reset) = some (.curTemp 0) := by decide +kernel
theorem test_correlate_wraps : value (exec (.correlate 3 255 3 0) State.reset) = some (.correlated true) := by decide +kernel
theorem test_frameReq :
    value (exec (.frameReq 0 3 1 1 0 0 0 9) State.reset) = some (.request [0, 0, 0, 3, 3, 0, 9, 0x5A]) := by decide +kernel
theorem test_frameResp :
    goes (exec (.frameResp frameP1) awaiting) (fun t => t.st = .idle && t.trace = [.publish 0] &&
      commands 0 t = some (1, 4, 2, 0, 24, false)) = true := by decide +kernel
theorem test_dirPin_reset : dirPin State.reset = 0 := by decide

/-- The width of RR (10_state.md R29) for NZ_MAX 1, 2, 3, 4 and 5. -/
theorem test_rr_width : [1, 2, 3, 4, 5].map (fun n => rrWidth { Config.t0 with nzMax := n }) = [1, 1, 2, 2, 3] := by
  decide +kernel

/-! ### Witnesses: for each obligation with hypotheses, states and operands that meet them -/

theorem exists_next {o : Answer} (h : (got o).isSome = true) : ∃ t, o = .next t := by
  cases o with
  | next t => exact ⟨t, rfl⟩
  | fault f => cases h
  | refused r => cases h

theorem exists_goes {o : Answer} {p : State → Bool} (h : goes o p = true) : ∃ t, o = .next t ∧ p t = true := by
  cases o with
  | next t => exact ⟨t, rfl, h⟩
  | fault f => cases h
  | refused r => cases h

/-- A record waits in the input. -/
def presented (r : Record) (s : State) : State := { s with input := [r] }

theorem witness_StepPerformsNextOperation :
    (presented ⟨.op, [0x05, 2]⟩ State.reset).input = [⟨.op, [0x05, 2]⟩] ∧ configRefused State.reset = false ∧
      decode Config.t0 ⟨.op, [0x05, 2]⟩ = .ok (.getZone 2) ∧ (Instr.getZone 2).wellFormed Config.t0 = true := by decide +kernel

/-- An empty input; a refused configuration; a record that is no operation. -/
theorem witness_StepWaitsOrRefuses :
    State.reset.input = [] ∧
    configRefused (presented ⟨.op, [0]⟩ (State.resetOf Config.t0 [256])) = true ∧
    (configRefused (presented ⟨.op, [6]⟩ State.reset) = false ∧ decode Config.t0 ⟨.op, [6]⟩ = .error .unknownOpcode) := by
  decide +kernel

/-- Every operand of a request frame at its greatest value. -/
theorem witness_DecodeEncodeRoundTrip :
    Config.t0.writeFlagMask ≠ 0 ∧ Config.t0.writeFlagMask &&& 1 = 0 ∧
      (Instr.frameReq 255 255 1 1 2 1 4 15).wellFormed Config.t0 = true := by decide +kernel

theorem witness_EncodeDecodeRoundTrip : decode Config.t0 ⟨.req, [0, 0, 0, 3, 3, 0, 9, 0x5A]⟩ = .ok (.frameReq 0 3 1 1 0 0 0 9) := by
  decide +kernel

/-- The op codes at the ends of the gaps in the map. -/
theorem witness_UnmappedOpCodesRefused :
    (presented ⟨.op, [6]⟩ State.reset).input = [⟨.op, [6]⟩] ∧ configRefused State.reset = false ∧
    ∀ op ∈ [6#8, 15#8, 32#8, 255#8], 5 < op.toNat ∧ op.toNat < 16 ∨ 31 < op.toNat := by decide +kernel

/-- Each operand at its least refused value: SET_ZONE's k, fan and swing bytes, each field of PACK_STATUS, the last narrow
field of ENCODE_REQUEST, the counts, and the values left out by value. -/
theorem witness_OutOfRangeOperandsRefused :
    ((0x03#8, [8, 3, 2, 1, 8]) ∈ fixedOperands ∧ Oversized [8, 3, 2, 1, 8] [0, 8, 0, 0, 0] ∧
      Oversized [8, 3, 2, 1, 8] [0, 0, 4, 0, 0] ∧ Oversized [8, 3, 2, 1, 8] [0, 0, 0, 2, 0]) ∧
    ((0x1A#8, [1, 1]) ∈ fixedOperands ∧ Oversized [1, 1] [2, 0] ∧ Oversized [1, 1] [0, 2]) ∧
    ((0x12#8, [8, 8, 1, 1, 3, 1, 2, 8]) ∈ fixedOperands ∧ Oversized [8, 8, 1, 1, 3, 1, 2, 8] [0, 0, 0, 0, 0, 0, 4, 0]) ∧
    32 ≤ (32#8).toNat ∧ 16 < (List.replicate 17 0#8).length ∧ ((5#3).toNat ≤ 5 ∧ 4 < (5#3).toNat) ∧ 2 < (3#2).toNat := by
  simp [fixedOperands, Oversized]

theorem witness_VerifyChecksumResult : ([] : List Byte).length ≤ 16 ∧ frameP1.length ≤ 16 := by decide

/-- The counts 8, 9, 16 and 17. -/
theorem witness_DecodeResponseResult :
    (List.replicate 8 0#8).length < 9 ∧
    (9 ≤ (List.replicate 9 0#8).length ∧ (List.replicate 16 0#8).length ≤ 16) ∧
    frameP1[Config.t0.respReqidOffset]? = some 0 ∧ 16 < (List.replicate 17 0#8).length := by decide

theorem witness_ModeResults : (4#3).toNat ≤ 4 := by decide

theorem witness_PackedByteResults : (4#3).toNat ≤ 4 ∧ (2#2).toNat ≤ 2 := by decide

/-- Each policy. -/
theorem witness_TargetResults : State.reset.cfg.tempPolicy = .clamp ∧ truncReset.cfg.tempPolicy = .truncByte := by decide

/-- A half-way input. -/
theorem witness_DecCurtempRounds :
    value (exec (.decCurtemp 32) State.reset) = some (.curTemp 58) ∧
      (64 * (58#8).toInt - (4480 - 25 * ((32#8).toNat : Int))).natAbs = 32 := by decide +kernel

theorem witness_CombinationalOperationsArePure :
    ∃ t, encode Config.t0 (.checksum [0]) = ⟨.op, 0x10 :: [1, 0]⟩ ∧ 16 ≤ (0x10#8).toNat ∧
      exec (.checksum [0]) State.reset = .next t := ⟨_, rfl, by decide, rfl⟩

theorem witness_EncodedRequestsVerify :
    ∃ t f, exec (.encodeRequest 3 0 1 1 4 1 2 24) State.reset = .next t ∧ t.result = some (.request f) := ⟨_, _, rfl, rfl⟩

theorem witness_SingleByteChangeDetected :
    frameP1.length ≤ 16 ∧ frameP1[14]? = some 0 ∧ (1 : Byte) ≠ 0 ∧
      exec (.verifyChecksum frameP1) State.reset = .next { State.reset with result := some (.verified true) } :=
  ⟨by decide, by decide, by decide, rfl⟩

theorem witness_ReorderingUndetected : [0x10#8, 0x01#8].Perm [0x01#8, 0x10#8] := by decide

theorem witness_StateCodecRoundTrip :
    ((4#3).toNat ≤ 4 ∧ (2#2).toNat ≤ 2) ∧ 15 ≤ (15#8).toNat ∧ (30#8).toNat ≤ 30 := by decide

theorem witness_TickWritesLeastPendingSlot :
    pendingWrite.st = .idle ∧ pendingWrite.slots[0]? = some (setPend true (slotOfZone 3)) ∧
      (setPend true (slotOfZone 3)).pend = true ∧ (0 : Int) ≤ 3 ∧ (3 : Int) ≤ 255 ∧
      ∀ j sl, j < 0 → pendingWrite.slots[j]? = some sl → ¬ (sl.pend = true ∧ 0 ≤ sl.zid ∧ sl.zid ≤ 255) :=
  ⟨rfl, rfl, rfl, by decide, by decide, fun _ _ h => by omega⟩

theorem reset_no_write : ¬ WritePending State.reset := by
  unfold WritePending
  decide +kernel

/-- The next step lands on the active slot 0; on the inactive slot 2. N is NZ_MAX. -/
theorem witness_TickPollsNextSlot :
    (State.reset.slots.length ≤ State.reset.cfg.nzMax ∧ State.reset.st = .idle ∧ ¬ WritePending State.reset ∧
      (100#32).toNat ≤ (100#32 - State.reset.pollTs).toNat ∧
      State.reset.slots[(State.reset.rr + 1) % State.reset.slots.length]? = some (slotOfZone 3)) ∧
    (let s := { State.reset with rr := 1, pollTs := 100 }
     s.slots.length ≤ s.cfg.nzMax ∧ ¬ WritePending s ∧ (100#32).toNat ≤ (200#32 - s.pollTs).toNat ∧
      s.slots[(s.rr + 1) % s.slots.length]? = some (slotOfZone (-1))) :=
  ⟨⟨by decide, rfl, reset_no_write, by decide, by decide +kernel⟩, by decide, reset_no_write, by decide, by decide +kernel⟩

/-- No slots; the last tick before the interval has elapsed. -/
theorem witness_IdleTickOtherwiseSetsRunOnly :
    ((State.resetOf Config.t0 []).st = .idle ∧ ¬ WritePending (State.resetOf Config.t0 []) ∧
      (State.resetOf Config.t0 []).slots = []) ∧
    State.reset.st = .idle ∧ ¬ WritePending State.reset ∧
      (99#32 - State.reset.pollTs).toNat < State.reset.cfg.pollInterval.toNat :=
  ⟨⟨rfl, by unfold WritePending; decide, rfl⟩, rfl, reset_no_write, by decide +kernel⟩

/-- The last tick before the deadline and the first one at it. -/
theorem witness_TickChecksReceiveDeadline :
    awaiting.st ≠ .idle ∧ ¬ awaiting.cfg.rxTimeout.toNat ≤ (149#32 - awaiting.txTs).toNat ∧
      awaiting.cfg.rxTimeout.toNat ≤ (150#32 - awaiting.txTs).toNat := by decide +kernel

theorem witness_TimeoutFreesTheBus :
    (let s := { awaiting with slots := pendingWrite.slots }
     s.st ≠ .idle ∧ s.cfg.rxTimeout.toNat ≤ (150#32 - s.txTs).toNat ∧ WritePending s) :=
  ⟨by decide, by decide +kernel, setPend true (slotOfZone 3), by decide, rfl, by decide⟩

theorem witness_NoiseBytesDiscarded : State.reset.st = .idle ∧ awaiting.st = .awaitResponse ∧ (0x7E : Byte) ≠ 0x10 := by decide

theorem witness_StartByteStartsFrame : awaiting.st = .awaitResponse ∧ Memory.wf awaiting.rxbuf = true := by decide

/-- The second byte and the fifteenth. -/
theorem witness_ReceivedByteAppended :
    ((receiving [(0, 0x10)] 1).st = .receiving ∧ Memory.wf [(0, 0x10)] = true ∧ (1#5).toNat < 15) ∧
    (receiving frame15 14).st = .receiving ∧ Memory.wf frame15 = true ∧ (14#5).toNat < 15 := by decide +kernel

theorem witness_OffsetOutsideBufferFaults : (receiving [] 16).st = .receiving ∧ 16 ≤ (receiving [] 16).rxcnt.toNat := by decide

theorem completed_frame : completedFrame (receiving frame15 15) 0xD4 = frameP1 := by decide +kernel

theorem good_frame : ChecksumGood frameP1 := by
  unfold ChecksumGood
  decide +kernel

theorem correlated_frame : Correlated awaiting frameP1 := ⟨by decide, 0, by decide, .inl (by decide)⟩

theorem witness_ChecksumMismatchEndsCycle :
    (receiving frame15 15).st = .receiving ∧ (receiving frame15 15).rxcnt = 15 ∧ Memory.wf frame15 = true ∧
      ¬ ChecksumGood (completedFrame (receiving frame15 15) 0xD5) := by
  unfold ChecksumGood
  decide +kernel

/-- The request sent last went to zone 5. -/
theorem witness_UncorrelatedFrameEndsCycle :
    (let s := { receiving frame15 15 with lastZone := 5 }
     s.st = .receiving ∧ s.rxcnt = 15 ∧ Memory.wf s.rxbuf = true ∧ s.cfg.respReqidOffset < 16 ∧
      ChecksumGood (completedFrame s 0xD4) ∧ ¬ Correlated s (completedFrame s 0xD4)) :=
  ⟨rfl, rfl, by decide +kernel, by decide, completed_frame ▸ good_frame,
    fun h => absurd (show (3 : Byte) = 5 from h.1) (by decide)⟩

/-- No slot is active. -/
theorem witness_UnknownZoneEndsCycle :
    (let s := { receiving frame15 15 with slots := [slotOfZone (-1)] }
     s.st = .receiving ∧ s.rxcnt = 15 ∧ Memory.wf s.rxbuf = true ∧ ChecksumGood (completedFrame s 0xD4) ∧
      Correlated s (completedFrame s 0xD4) ∧ ¬ ActiveZone s s.lastZone) :=
  ⟨rfl, rfl, by decide +kernel, completed_frame ▸ good_frame, ⟨by decide, 0, by decide, .inl (by decide)⟩, by
    unfold ActiveZone
    decide +kernel⟩

theorem witness_CorrelatedFrameDispatched :
    (let s := receiving frame15 15
     s.st = .receiving ∧ s.rxcnt = 15 ∧ Memory.wf s.rxbuf = true ∧ configRefused s = false ∧
      ChecksumGood (completedFrame s 0xD4) ∧ Correlated s (completedFrame s 0xD4) ∧ s.slots[0]? = some (slotOfZone 3) ∧
      (slotOfZone 3).zid = (s.lastZone.toNat : Int)) :=
  ⟨rfl, rfl, by decide +kernel, by decide +kernel, completed_frame ▸ good_frame, ⟨by decide, 0, by decide, .inl (by decide)⟩,
    rfl, rfl⟩

theorem witness_PendingSlotKeepsCommandedState :
    (let s := { receiving frame15 15 with slots := pendingWrite.slots }
     s.cfg.decodeOverwritesPending = false ∧ s.slots[0]? = some (setPend true (slotOfZone 3)) ∧
      (setPend true (slotOfZone 3)).pend = true ∧ ∃ t, exec (.rxByte 0xD4) s = .next t) :=
  ⟨rfl, rfl, rfl, exists_next (by decide +kernel)⟩

/-- No bytes, and as many as RX_MAX, after a DRIVE that left a byte in the transport. -/
theorem witness_DriveIsItsExpansion :
    (∀ bytes ∈ [[], frameP1],
      let s := { State.reset with held := [0x7E], input := driveRecords Config.t0 7 bytes ++ [] }
      configRefused s = false ∧ s.input = driveRecords s.cfg 7 bytes ++ [] ∧ bytes.length ≤ s.cfg.rxMax) := by
  decide +kernel

/-- A state between two bytes of a frame meets the invariants. -/
theorem receiving_inv {n : BitVec 5} (h : 1 ≤ n.toNat ∧ n.toNat ≤ 15) : Inv (receiving frame15 n) where
  config := show configRefused awaiting = false by decide +kernel
  buffer := show Memory.wf frame15 = true by decide +kernel
  dirLow := rfl
  quiet := fun h => absurd rfl h
  receiving := fun _ => ⟨h.1, h.2, rfl⟩
  slotsLegal := show ∀ sl ∈ awaiting.slots, modeOk sl.mode = true ∧ fanOk sl.fan = true by decide +kernel
  registry := show awaiting.slots.length ≤ awaiting.cfg.nzMax by decide
  rrBits := show awaiting.rr < 2 ^ rrWidth awaiting.cfg by decide +kernel
  rrIndex := .inl (show awaiting.rr < awaiting.slots.length by decide)
  beforeRun := fun h => by cases h
  lastZoneActive := fun _ => ⟨slotOfZone 3, .head _, rfl, rfl⟩

theorem witness_DriveCompletes : Inv (receiving frame15 10) := receiving_inv (by decide)

/-- A whole frame in AwaitResponse; the sixteenth byte alone, and the last fifteen together. -/
theorem witness_FrameCompletedBeforeDeadlineKept :
    (awaiting.st ≠ .idle ∧ ∃ u, execAll ((frameP1.take awaiting.cfg.rxMax).map .rxByte) awaiting = .next u ∧ u.st = .idle) ∧
    ((receiving frame15 15).st = .receiving ∧ (receiving frame15 15).rxcnt.toNat ≤ 15 ∧
      16 ≤ (receiving frame15 15).rxcnt.toNat + ([0xD4#8].take Config.t0.rxMax).length) ∧
    16 ≤ (receiving frame15 1).rxcnt.toNat + ((frameP1.drop 1).take Config.t0.rxMax).length := by
  refine ⟨⟨by decide, ?_⟩, by decide, by decide⟩
  obtain ⟨u, h, hu⟩ := exists_goes (p := fun u => u.st = .idle)
    (show goes (execAll ((frameP1.take awaiting.cfg.rxMax).map .rxByte) awaiting) _ = true by decide +kernel)
  exact ⟨u, h, of_decide_eq_true hu⟩

theorem witness_FrameRespDispatched :
    awaiting.st = .awaitResponse ∧ awaiting.rxbuf = [] ∧ configRefused awaiting = false ∧ frameP1.length = 16 ∧
      frameP1.head? = some 0x10 ∧ ChecksumGood frameP1 ∧ Correlated awaiting frameP1 ∧
      awaiting.slots[0]? = some (slotOfZone 3) ∧ (slotOfZone 3).zid = (awaiting.lastZone.toNat : Int) :=
  ⟨rfl, rfl, by decide +kernel, rfl, rfl, good_frame, correlated_frame, rfl, rfl⟩

/-- The first slot index outside the registry and the last one inside. -/
theorem witness_zone_operations :
    State.reset.slots.length ≤ (3#8).toNat ∧ State.reset.slots[(2#8).toNat]? = some (slotOfZone (-1)) := by decide +kernel

theorem witness_SetZoneResult : State.reset.slots.length ≤ (3#8).toNat ∧ State.reset.slots[(2#8).toNat]? = some (slotOfZone (-1)) :=
  witness_zone_operations

/-- Each refusal alone, at the boundary of its operand, and the request that is none of them. -/
theorem witness_SeedZoneResult :
    (State.reset.slots.length ≤ (3#8).toNat ∧ (5#3).toNat ≤ 5 ∧ State.reset.run = false) ∧
    ((2#8).toNat < State.reset.slots.length ∧ 5 < (6#3).toNat) ∧
    ((2#8).toNat < awaiting.slots.length ∧ awaiting.run = true) ∧
    State.reset.slots[(2#8).toNat]? = some (slotOfZone (-1)) := by decide +kernel

theorem witness_GetZoneResult : State.reset.slots.length ≤ (3#8).toNat ∧ State.reset.slots[(2#8).toNat]? = some (slotOfZone (-1)) :=
  witness_zone_operations

theorem witness_SetZoneIdempotent : ∃ t, exec (.setZone 2 5 3 1 255) State.reset = .next t := ⟨_, rfl⟩

/-- N is NZ_MAX. -/
theorem witness_ResetResult : awaiting.slots.length ≤ awaiting.cfg.nzMax := by decide

theorem pending_write : WritePending pendingWrite := ⟨setPend true (slotOfZone 3), by decide, rfl, by decide⟩

/-- For each row of the table an operation in a state it speaks of, with the next state; N is NZ_MAX in all of them. -/
theorem witness_ControllerTransitions :
    (awaiting.slots.length ≤ awaiting.cfg.nzMax ∧ pendingWrite.slots.length ≤ pendingWrite.cfg.nzMax ∧
      State.reset.slots.length ≤ State.reset.cfg.nzMax) ∧
    (∃ t, exec .reset awaiting = .next t) ∧
    (∃ t, exec (.tick 0) pendingWrite = .next t ∧ pendingWrite.st = .idle ∧ WritePending pendingWrite) ∧
    (∃ t, exec (.tick 100) State.reset = .next t ∧ ¬ WritePending State.reset ∧
      State.reset.cfg.pollInterval.toNat ≤ (100#32 - State.reset.pollTs).toNat) ∧
    (∃ t, exec (.tick 99) State.reset = .next t ∧ (99#32 - State.reset.pollTs).toNat < State.reset.cfg.pollInterval.toNat) ∧
    (∃ t, exec (.tick 150) awaiting = .next t ∧ awaiting.st ≠ .idle) ∧
    (∃ t, exec (.rxByte 0xD4) (receiving frame15 15) = .next t) ∧
    ∃ t, exec (.getZone 0) awaiting = .next t :=
  ⟨by decide, ⟨_, rfl⟩, ⟨_, rfl, rfl, pending_write⟩, ⟨_, rfl, reset_no_write, by decide +kernel⟩, ⟨_, rfl, by decide +kernel⟩,
    ⟨_, rfl, by decide⟩, exists_next (by decide +kernel), ⟨_, rfl⟩⟩

theorem witness_RoundRobinMovesOnlyByPollStep :
    ∃ t, State.reset.slots.length ≤ State.reset.cfg.nzMax ∧ Instr.tick 100 ≠ .reset ∧
      (∀ now bytes, Instr.tick 100 ≠ .drive now bytes) ∧ exec (.tick 100) State.reset = .next t :=
  ⟨_, by decide, by simp, by simp, rfl⟩

/-- A poll, a timeout in a DRIVE and a second poll in a DRIVE. -/
theorem witness_RoundRobinOrder :
    State.reset.slots.length ≤ State.reset.cfg.nzMax ∧
      (∀ i ∈ [Instr.tick 100, .drive 150 [0x7E], .drive 200 []], i ≠ .reset) ∧
      (pollOrder [.tick 100, .drive 150 [0x7E], .drive 200 []] State.reset)[1]? = some 1 :=
  ⟨by decide, by simp, by decide +kernel⟩

theorem witness_SequenceAdvancesOnlyByTransmission :
    ∃ t, Instr.tick 100 ≠ .reset ∧ (∀ now bytes, Instr.tick 100 ≠ .drive now bytes) ∧ exec (.tick 100) State.reset = .next t ∧
      t.seq = State.reset.seq + 1 := ⟨_, by simp, by simp, rfl, by decide +kernel⟩

/-- SET_ZONE sets PEND of slot 0, and a tick clears it. -/
theorem witness_PendSingleWriterSingleClearer :
    (∃ t sl', exec (.setZone 0 0 0 0 24) State.reset = .next t ∧ State.reset.slots[0]? = some (slotOfZone 3) ∧
      t.slots[0]? = some sl' ∧ (slotOfZone 3).pend = false ∧ sl'.pend = true) ∧
    ∃ t sl', exec (.tick 0) pendingWrite = .next t ∧ pendingWrite.slots[0]? = some (setPend true (slotOfZone 3)) ∧
      t.slots[0]? = some sl' ∧ (setPend true (slotOfZone 3)).pend = true ∧ sl'.pend = false :=
  ⟨⟨_, _, rfl, rfl, rfl, rfl, rfl⟩, _, slotOfZone 3, rfl, rfl, by decide +kernel, rfl, rfl⟩

theorem witness_ConfigurationNeverWritten : ∃ t, exec .reset awaiting = .next t := ⟨_, rfl⟩

theorem witness_CurrentTemperatureOnlyByCompletedFrame :
    goes (exec (.rxByte 0xD4) (receiving frame15 15)) (fun t => (t.slots[0]?).any fun sl' =>
      (sl'.cur, sl'.curValid) ≠ ((slotOfZone 3).cur, (slotOfZone 3).curValid)) = true := by decide +kernel

theorem witness_TraceGrowsByBoundedTransmission :
    goes (exec (.tick 100) State.reset) (fun t => txCount t.trace = 8) = true := by decide +kernel

theorem presented_inv {s : State} (r : Record) (h : Inv s) : Inv (presented r s) :=
  ⟨h.config, h.buffer, h.dirLow, h.quiet, h.receiving, h.slotsLegal, h.registry, h.rrBits, h.rrIndex, h.beforeRun,
    h.lastZoneActive⟩

theorem witness_StepKeepsControllerInvariants :
    Inv (presented ⟨.op, [0x02, 0xD4]⟩ (receiving frame15 15)) ∧
      ∃ t, step (presented ⟨.op, [0x02, 0xD4]⟩ (receiving frame15 15)) = .next t :=
  ⟨presented_inv _ (receiving_inv (by decide)), exists_next (by decide +kernel)⟩

/-- N is NZ_MAX, and the active ids are at their bounds. -/
theorem witness_ResetMeetsControllerInvariants :
    [0, 255, -1].length ≤ Config.t0.nzMax ∧ configRefused (State.resetOf Config.t0 [0, 255, -1]) = false := by
  decide +kernel

theorem witness_StepKeepsDirectionBracket :
    Bracketed (transmission [0, 0, 0, 3, 0, 0, 1, 0x51] ++ [.publish 0]) ∧ ∃ t, step State.reset = .next t :=
  ⟨rfl, _, rfl⟩

theorem witness_NoFaultUnderInvariants : Inv (receiving frame15 15) := receiving_inv (by decide)

/-- The byte completes a good, correlated frame. -/
theorem witness_UnknownZoneUnreachable :
    Inv (receiving frame15 15) ∧ ∃ t, exec (.rxByte 0xD4) (receiving frame15 15) = .next t :=
  ⟨receiving_inv (by decide), exists_next (by decide +kernel)⟩

end Sys2Proof.Tests
end

section
/-! PROOFS. The refused configurations (00_scope.md R8), and who writes RR and POLL_TS (10_state.md R29, R30). -/

namespace Sys2Proof.Proofs

open Sys2Proof.Machine Sys2Proof.Safety Sys2Proof.Laws

/-! ### The refused configurations -/

/-- Settles O3: `zidsRefused_iff` on the zone ids, read back at the slots that hold them. -/
theorem refusedConfigurations : Obligations.RefusedConfigurations := by
  intro s
  rw [configRefused, zidsRefused_iff]
  apply or_congr
  · simp only [List.mem_map, exists_exists_and_eq_and]
  · simp only [List.getElem?_map, Option.map_eq_some_iff]
    constructor
    · rintro ⟨j, k, _, hjk, ⟨a, ha, rfl⟩, ⟨b, hb, hba⟩, hz⟩
      exact ⟨j, k, a, b, hjk, ha, hb, hba.symm, hz⟩
    · rintro ⟨j, k, a, b, hjk, ha, hb, hab, hz⟩
      exact ⟨j, k, a.zid, hjk, ⟨a, ha, rfl⟩, ⟨b, hb, hab.symm⟩, hz⟩

/-! ### What received bytes leave unchanged -/

/-- FRAME_COMPLETE ends the cycle and writes, beyond that, only the slots and the trace. -/
theorem frameComplete_frame (s : State) : ∃ slots trace,
    frameComplete s = { s with st := .idle, rxbuf := [], rxcnt := 0, slots := slots, trace := trace } := by
  rcases frameComplete_cases s with ⟨-, h⟩ | ⟨-, -, h⟩ | ⟨-, -, -, h⟩ | ⟨-, -, k, sl, -, -, h⟩ <;> exact ⟨_, _, h⟩

/-- RX_BYTE writes only ST, RXBUF, RXCNT, the slots and the trace. -/
theorem execRxByte_frame {b : Byte} {s t : State} (h : execRxByte b s = .next t) : ∃ st rxbuf rxcnt slots trace,
    t = { s with st := st, rxbuf := rxbuf, rxcnt := rxcnt, slots := slots, trace := trace } := by
  rcases execRxByte_cases h with ⟨-, ht, -⟩ | ⟨-, -, ht⟩ | ⟨-, -, ht⟩ | ⟨-, -, ht⟩
  · exact ⟨_, _, _, _, _, ht⟩
  · exact ⟨_, _, _, _, _, ht⟩
  · exact ⟨_, _, _, _, _, ht⟩
  · obtain ⟨slots, trace, hf⟩ := frameComplete_frame { s with rxbuf := bufPut s.rxbuf 15 b, rxcnt := 16 }
    exact ⟨_, _, _, _, _, ht.trans hf⟩

/-- A sequence of bytes writes no more than one byte may. -/
theorem rxBytes_frame {bytes : List Byte} {s t : State} (h : rxBytes bytes s = .next t) : ∃ st rxbuf rxcnt slots trace,
    t = { s with st := st, rxbuf := rxbuf, rxcnt := rxcnt, slots := slots, trace := trace } := by
  induction bytes generalizing s with
  | nil =>
    cases h
    exact ⟨_, _, _, _, _, rfl⟩
  | cons b bytes ih =>
    obtain ⟨u, hu, ht⟩ := andThen_eq_next h
    obtain ⟨_, _, _, _, _, rfl⟩ := execRxByte_frame hu
    obtain ⟨_, _, _, _, _, rfl⟩ := ih ht
    exact ⟨_, _, _, _, _, rfl⟩

/-! ### The writers of RR and POLL_TS -/

/-- A write step leaves the round-robin registers alone (41_controller.md R177). -/
@[simp] theorem writeStep_rr (k : Nat) (sl : Slot) (now : Time) (s : State) : (writeStep k sl now s).rr = s.rr := by
  rw [writeStep_eq]

@[simp] theorem writeStep_pollTs (k : Nat) (sl : Slot) (now : Time) (s : State) :
    (writeStep k sl now s).pollTs = s.pollTs := by
  rw [writeStep_eq]

/-- A poll step advances RR whether or not its slot is active (R179). -/
@[simp] theorem pollStep_rr (sl : Slot) (now : Time) (s : State) : (pollStep sl now s).rr = nextRr s := by
  rw [pollStep_eq]
  split <;> rfl

@[simp] theorem pollStep_pollTs (sl : Slot) (now : Time) (s : State) : (pollStep sl now s).pollTs = now := by
  rw [pollStep_eq]
  split <;> rfl

/-- A tick moves RR and POLL_TS in its poll branch alone. -/
theorem tick_roundRobin (now : Time) {s : State} (hN : s.slots.length ≤ s.cfg.nzMax) :
    ((tick now s).rr = s.rr ∧ (tick now s).pollTs = s.pollTs) ∨
      (s.st = .idle ∧ ¬ WritePending s ∧ s.cfg.pollInterval.toNat ≤ (now - s.pollTs).toNat ∧ s.slots ≠ [] ∧
        (tick now s).rr = (s.rr + 1) % s.slots.length ∧ (tick now s).pollTs = now) := by
  rcases tick_cases now s with ⟨-, k, sl, -, -, ht⟩ | ⟨hidle, hw, sl, he, hsl, ht⟩ | ⟨-, -, -, ht⟩ | ⟨-, -, ht⟩ | ⟨-, -, ht⟩
  case inr.inl =>
    have hne : s.slots ≠ [] := List.ne_nil_of_mem (List.mem_of_getElem? hsl)
    have hrr : (tick now s).rr = (s.rr + 1) % s.slots.length := by
      rw [ht, pollStep_rr]
      exact nextRr_eq hN hne
    exact .inr ⟨hidle, hw, (elapsed_iff _ _ _).1 he, hne, hrr, by rw [ht, pollStep_pollTs]⟩
  all_goals exact .inl (by simp [ht, abandoned])

/-- Of the operations other than RESET, only TICK, alone or in DRIVE, may write RR or POLL_TS. -/
theorem exec_roundRobin_eq {i : Instr} {s t : State} (h : exec i s = .next t) (hreset : i ≠ .reset)
    (htick : ∀ now, i ≠ .tick now) (hdrive : ∀ now bytes, i ≠ .drive now bytes) : t.rr = s.rr ∧ t.pollTs = s.pollTs := by
  rcases exec_cases h with ⟨hi, -⟩ | ⟨now, hi, -⟩ | ⟨b, -, hb⟩ | ⟨k, vmode, fan, swing, target, -, hc⟩ |
    ⟨k, vmode, fan, swing, target, -, hc⟩ | ⟨k, e, -, -, rfl⟩ | ⟨now, bytes, u, hi, -⟩ | ⟨bytes, -, hb⟩ |
    ⟨-, -, -, -, -, r, rfl⟩
  · exact absurd hi hreset
  · exact absurd hi (htick now)
  · obtain ⟨_, _, _, _, _, rfl⟩ := execRxByte_frame hb
    exact ⟨rfl, rfl⟩
  · obtain ⟨sl, p, m, -, -, rfl⟩ := changeZone_eq_next hc
    exact ⟨rfl, rfl⟩
  · obtain ⟨sl, p, m, -, -, -, rfl⟩ := execSeedZone_eq_next hc
    exact ⟨rfl, rfl⟩
  · exact ⟨rfl, rfl⟩
  · exact absurd hi (hdrive now bytes)
  · obtain ⟨_, _, _, _, _, rfl⟩ := rxBytes_frame hb
    exact ⟨rfl, rfl⟩
  · exact ⟨rfl, rfl⟩

/-- Settles O49: a TICK by its branches, every other operation by its frame. -/
theorem roundRobinMovesOnlyByPollStep : Obligations.RoundRobinMovesOnlyByPollStep := by
  intro i s t hN hreset hdrive h
  by_cases htick : ∃ now, i = .tick now
  · obtain ⟨now, rfl⟩ := htick
    cases h
    exact (tick_roundRobin now hN).imp_right fun hpoll => ⟨now, rfl, hpoll⟩
  · exact .inl (exec_roundRobin_eq h hreset (not_exists.1 htick) hdrive)

end Sys2Proof.Proofs
end

section
/-! PROOFS. What each operation writes of the slots: their zone ids, PEND and the current temperature (10_state.md R41, R42,
R44). -/

namespace Sys2Proof.Proofs

open Sys2Proof.Machine Sys2Proof.Safety Sys2Proof.Laws

/-! ### A response's write to its slot -/

/-- A response never touches the zone id, which is configuration (10_state.md R44). -/
@[simp] theorem responded_zid (c : Config) (frame : List Byte) (sl : Slot) : (responded c frame sl).zid = sl.zid := by
  simp only [responded]
  split <;> rfl

/-- A response never touches PEND (20_memory.md R73). -/
@[simp] theorem responded_pend (c : Config) (frame : List Byte) (sl : Slot) : (responded c frame sl).pend = sl.pend := by
  simp only [responded]
  split <;> rfl

@[simp] theorem responded_cur (c : Config) (frame : List Byte) (sl : Slot) :
    (responded c frame sl).cur = decCurtemp (frame.getD 8 0) := rfl

@[simp] theorem responded_curValid (c : Config) (frame : List Byte) (sl : Slot) :
    (responded c frame sl).curValid = true := rfl

/-- Every byte of a frame decodes to a temperature in the range of 40_codec.md R137. -/
theorem decCurtemp_bounds (b : Byte) : -30 ≤ (decCurtemp b).toInt ∧ (decCurtemp b).toInt ≤ 70 := by
  have hb := b.isLt
  simp only [decCurtemp]
  split <;> rw [BitVec.toInt_ofInt_eq_self (by decide) (by omega) (by omega)] <;> omega

/-! ### The slots after an operation -/

/-- What RX_BYTE answers, with the outcomes of a completed frame reduced to two: the cycle is abandoned, or one slot takes the
response. -/
theorem execRxByte_outcomes {b : Byte} {s t : State} (h : execRxByte b s = .next t) :
    t = s ∨
    (s.st = .awaitResponse ∧ b = 0x10 ∧ t = { s with rxbuf := bufPut s.rxbuf 0 b, rxcnt := 1, st := .receiving }) ∨
    (s.st = .receiving ∧ s.rxcnt.toNat < 15 ∧
      t = { s with rxbuf := bufPut s.rxbuf s.rxcnt.toNat b, rxcnt := s.rxcnt + 1 }) ∨
    (∃ code, t = abandoned s code) ∨
    (s.st = .receiving ∧ s.rxcnt = 15 ∧ ∃ k frame sl, s.slots[k]? = some sl ∧ t = dispatched s k frame sl) := by
  rcases execRxByte_cases h with ⟨-, ht, -⟩ | hstart | happend | ⟨hst, hcnt, ht⟩
  · exact .inl ht
  · exact .inr (.inl hstart)
  · exact .inr (.inr (.inl happend))
  · have hcnt : s.rxcnt = 15 := BitVec.eq_of_toNat_eq hcnt
    rcases frameComplete_cases { s with rxbuf := bufPut s.rxbuf 15 b, rxcnt := 16 } with
      ⟨-, hf⟩ | ⟨-, -, hf⟩ | ⟨-, -, -, hf⟩ | ⟨-, -, k, sl, -, hk, hf⟩
    · exact .inr (.inr (.inr (.inl ⟨1, ht.trans hf⟩)))
    · exact .inr (.inr (.inr (.inl ⟨3, ht.trans hf⟩)))
    · exact .inr (.inr (.inr (.inl ⟨5, ht.trans hf⟩)))
    · exact .inr (.inr (.inr (.inr ⟨hst, hcnt, k, _, sl, hk, ht.trans hf⟩)))

/-- RX_BYTE writes a slot only where its byte completes a frame. -/
theorem execRxByte_slots {b : Byte} {s t : State} (h : execRxByte b s = .next t) :
    t.slots = s.slots ∨
    (s.st = .receiving ∧ s.rxcnt = 15 ∧ ∃ k frame sl, s.slots[k]? = some sl ∧
      t.slots = s.slots.set k (responded s.cfg frame sl)) := by
  rcases execRxByte_outcomes h with rfl | ⟨-, -, rfl⟩ | ⟨-, -, rfl⟩ | ⟨code, rfl⟩ | ⟨hst, hcnt, k, frame, sl, hk, rfl⟩
  case inr.inr.inr.inr => exact .inr ⟨hst, hcnt, k, frame, sl, hk, rfl⟩
  all_goals exact .inl rfl

/-- A TICK writes a slot only where it sends that slot's pending change. -/
theorem tick_slots (now : Time) (s : State) :
    (tick now s).slots = s.slots ∨
    (s.st = .idle ∧ (tick now s).st = .awaitResponse ∧ ∃ k sl, s.slots[k]? = some sl ∧ slotActive sl = true ∧
      (tick now s).lastZone = slotZone sl ∧ (tick now s).slots = s.slots.set k (setPend false sl)) := by
  rcases tick_cases now s with ⟨hidle, k, sl, hp, hk, ht⟩ | ⟨-, -, sl, -, -, ht⟩ | ⟨-, -, -, ht⟩ | ⟨-, -, ht⟩ | ⟨-, -, ht⟩
  case inl =>
    obtain ⟨⟨sl', hk', -, ha⟩, -⟩ := (firstPending_eq_some_iff _ _).1 hp
    obtain rfl : sl' = sl := by simpa [hk] using hk'.symm
    rw [ht, writeStep_eq]
    exact .inr ⟨hidle, rfl, k, sl', hk, ha, rfl, rfl⟩
  case inr.inl =>
    rw [ht, pollStep_eq]
    split <;> exact .inl rfl
  all_goals exact .inl (by rw [ht]; rfl)

/-! ### What an operation leaves of every slot -/

/-- The slot at an index a write of slot j leaves as it was, or the one written. -/
theorem getElem?_set_cases {slots : List Slot} {j k : Nat} {a a' sl sl' : Slot} (hj : slots[j]? = some a)
    (hk : slots[k]? = some sl) (hk' : (slots.set j a')[k]? = some sl') : sl' = sl ∨ (j = k ∧ sl = a ∧ sl' = a') := by
  by_cases hjk : j = k
  · subst hjk
    obtain ⟨hlt, -⟩ := List.getElem?_eq_some_iff.1 hj
    rw [List.getElem?_set_self hlt] at hk'
    exact .inr ⟨rfl, Option.some.inj (hk.symm.trans hj), (Option.some.inj hk').symm⟩
  · rw [List.getElem?_set_ne hjk, hk] at hk'
    exact .inl (Option.some.inj hk').symm

section
variable {α : Type} {f : Slot → α}

/-- Replacing a slot by one with the same `f` keeps `f` of every slot. -/
theorem map_slots_set {slots : List Slot} {k : Nat} {sl sl' : Slot} (hk : slots[k]? = some sl) (hf : f sl' = f sl) :
    (slots.set k sl').map f = slots.map f := by
  obtain ⟨hlt, rfl⟩ := List.getElem?_eq_some_iff.1 hk
  rw [List.map_set, hf, ← List.map_set, List.set_getElem_self]

/-- Where `f` of every slot is kept, each slot has a successor with the same `f`. -/
theorem exists_slot_of_map_slots {s t : State} (h : t.slots.map f = s.slots.map f) {k : Nat} {sl : Slot}
    (hk : s.slots[k]? = some sl) : ∃ sl', t.slots[k]? = some sl' ∧ f sl' = f sl := by
  have hat := congrArg (·[k]?) h
  simpa [hk] using hat

theorem slot_eq_of_map_slots {s t : State} (h : t.slots.map f = s.slots.map f) {k : Nat} {sl sl' : Slot}
    (hk : s.slots[k]? = some sl) (hk' : t.slots[k]? = some sl') : f sl' = f sl := by
  obtain ⟨a, ha, hf⟩ := exists_slot_of_map_slots h hk
  rwa [← Option.some.inj (hk'.symm.trans ha)] at hf

/-- Received bytes keep every part of a slot that no response writes. -/
theorem execRxByte_map_slots (hf : ∀ c frame sl, f (responded c frame sl) = f sl) {b : Byte} {s t : State}
    (h : execRxByte b s = .next t) : t.slots.map f = s.slots.map f := by
  rcases execRxByte_slots h with hs | ⟨-, -, k, frame, sl, hk, hs⟩
  · rw [hs]
  · rw [hs, map_slots_set hk (hf _ _ _)]

/-- A sequence of bytes keeps what one byte keeps. -/
theorem rxBytes_map_slots (hf : ∀ c frame sl, f (responded c frame sl) = f sl) {bytes : List Byte} {s t : State}
    (h : rxBytes bytes s = .next t) : t.slots.map f = s.slots.map f := by
  induction bytes generalizing s with
  | nil =>
    cases h
    rfl
  | cons b bytes ih =>
    obtain ⟨u, hu, ht⟩ := andThen_eq_next h
    exact (ih ht).trans (execRxByte_map_slots hf hu)

/-- A TICK keeps every part of a slot but PEND. -/
theorem tick_map_slots (hf : ∀ sl, f (setPend false sl) = f sl) (now : Time) (s : State) :
    (tick now s).slots.map f = s.slots.map f := by
  rcases tick_slots now s with hs | ⟨-, -, k, sl, hk, -, -, hs⟩
  · rw [hs]
  · rw [hs, map_slots_set hk (hf sl)]

/-- A state-change request keeps every part of a slot that is neither commanded nor PEND. -/
theorem changeZone_map_slots (hf : ∀ p m fan w target sl, f (setPend true (commandSlot p m fan w target sl)) = f sl)
    {k : Byte} {vmode : BitVec 3} {fan : BitVec 2} {swing : Bit} {target : Byte} {s t : State}
    (h : changeZone k vmode fan swing target s = .next t) : t.slots.map f = s.slots.map f := by
  obtain ⟨sl, p, m, hk, -, rfl⟩ := changeZone_eq_next h
  exact map_slots_set hk (hf _ _ _ _ _ _)

/-- SEED_ZONE keeps every part of a slot that is not commanded. -/
theorem execSeedZone_map_slots (hf : ∀ p m fan w target sl, f (commandSlot p m fan w target sl) = f sl)
    {k : Byte} {vmode : BitVec 3} {fan : BitVec 2} {swing : Bit} {target : Byte} {s t : State}
    (h : execSeedZone k vmode fan swing target s = .next t) : t.slots.map f = s.slots.map f := by
  obtain ⟨sl, p, m, hk, -, -, rfl⟩ := execSeedZone_eq_next h
  exact map_slots_set hk (hf _ _ _ _ _ _)

end

/-! ### The configuration -/

/-- A TICK writes no parameter. -/
@[simp] theorem tick_cfg (now : Time) (s : State) : (tick now s).cfg = s.cfg := by
  rcases tick_cases now s with ⟨-, k, sl, -, -, ht⟩ | ⟨-, -, sl, -, -, ht⟩ | ⟨-, -, -, ht⟩ | ⟨-, -, ht⟩ | ⟨-, -, ht⟩
  case inl => rw [ht, writeStep_eq]; rfl
  case inr.inl =>
    rw [ht, pollStep_eq]
    split <;> rfl
  all_goals rw [ht]; rfl

/-- Settles O53: no operation writes a parameter, and the slots it writes keep their zone ids. -/
theorem configurationNeverWritten : Obligations.ConfigurationNeverWritten := by
  intro i s t h
  rcases exec_cases h with ⟨-, -, rfl⟩ | ⟨now, -, rfl⟩ | ⟨b, -, hb⟩ | ⟨k, vmode, fan, swing, target, -, hc⟩ |
    ⟨k, vmode, fan, swing, target, -, hc⟩ | ⟨k, e, -, -, rfl⟩ | ⟨now, bytes, u, -, hb, rfl⟩ | ⟨bytes, -, hb⟩ |
    ⟨-, -, -, -, -, r, rfl⟩
  · exact ⟨rfl, by simp [resetRegs]⟩
  · exact ⟨tick_cfg now s, tick_map_slots (fun _ => rfl) now s⟩
  · refine ⟨?_, execRxByte_map_slots responded_zid hb⟩
    obtain ⟨_, _, _, _, _, rfl⟩ := execRxByte_frame hb
    rfl
  · refine ⟨?_, changeZone_map_slots (fun _ _ _ _ _ _ => rfl) hc⟩
    obtain ⟨sl, p, m, -, -, rfl⟩ := changeZone_eq_next hc
    rfl
  · refine ⟨?_, execSeedZone_map_slots (fun _ _ _ _ _ _ => rfl) hc⟩
    obtain ⟨sl, p, m, -, -, -, rfl⟩ := execSeedZone_eq_next hc
    rfl
  · exact ⟨rfl, rfl⟩
  · refine ⟨?_, (tick_map_slots (fun _ => rfl) now u).trans (rxBytes_map_slots responded_zid hb)⟩
    obtain ⟨_, _, _, _, _, rfl⟩ := rxBytes_frame hb
    exact tick_cfg now _
  · refine ⟨?_, rxBytes_map_slots responded_zid hb⟩
    obtain ⟨_, _, _, _, _, rfl⟩ := rxBytes_frame hb
    rfl
  · exact ⟨rfl, rfl⟩

/-! ### PEND -/

/-- A TICK that changes PEND of a slot clears it, and sends that slot's request. -/
theorem tick_pend {now : Time} {s : State} {k : Nat} {sl sl' : Slot} (hk : s.slots[k]? = some sl)
    (hk' : (tick now s).slots[k]? = some sl') (hne : sl'.pend ≠ sl.pend) :
    sl'.pend = false ∧ s.st = .idle ∧ (tick now s).st = .awaitResponse ∧ slotActive sl = true ∧
      (tick now s).lastZone = slotZone sl := by
  rcases tick_slots now s with hs | ⟨hidle, hst, j, a, hj, ha, hz, hs⟩
  · rw [hs, hk] at hk'
    cases hk'
    exact absurd rfl hne
  · rcases getElem?_set_cases hj hk (hs ▸ hk') with rfl | ⟨-, rfl, rfl⟩
    · exact absurd rfl hne
    · exact ⟨rfl, hidle, hst, ha, hz⟩

/-- What an operation that changes PEND of slot k is: RESET or DRIVE, which only clear it, a state-change request on the slot,
which sets it, or a TICK that sends the slot's request. -/
theorem exec_pend {i : Instr} {s t : State} (h : exec i s = .next t) {k : Nat} {sl sl' : Slot}
    (hk : s.slots[k]? = some sl) (hk' : t.slots[k]? = some sl') (hne : sl'.pend ≠ sl.pend) :
    (sl'.pend = true ∧ ∃ kb vmode fan swing target, kb.toNat = k ∧
      (i = .setZone kb vmode fan swing target ∨ i = .requestChange kb vmode fan swing target)) ∨
    (sl'.pend = false ∧ (i = .reset ∨ (∃ now bytes, i = .drive now bytes) ∨
      ∃ now, i = .tick now ∧ s.st = .idle ∧ t.st = .awaitResponse ∧ slotActive sl = true ∧ t.lastZone = slotZone sl)) := by
  have hkept (hmap : t.slots.map (·.pend) = s.slots.map (·.pend)) : False := hne (slot_eq_of_map_slots hmap hk hk')
  rcases exec_cases h with ⟨hi, -, rfl⟩ | ⟨now, hi, rfl⟩ | ⟨b, -, hb⟩ | ⟨kb, vmode, fan, swing, target, hi, hc⟩ |
    ⟨kb, vmode, fan, swing, target, -, hc⟩ | ⟨kb, e, -, -, rfl⟩ | ⟨now, bytes, u, hi, hb, rfl⟩ | ⟨bytes, -, hb⟩ |
    ⟨-, -, -, -, -, r, rfl⟩
  · obtain rfl : resetSlot s.cfg sl = sl' := by simpa [resetRegs, hk] using hk'
    exact .inr ⟨rfl, .inl hi⟩
  · obtain ⟨hclear, hsend⟩ := tick_pend hk hk' hne
    exact .inr ⟨hclear, .inr (.inr ⟨now, hi, hsend⟩)⟩
  · exact (hkept (execRxByte_map_slots responded_pend hb)).elim
  · obtain ⟨a, p, m, ha, -, rfl⟩ := changeZone_eq_next hc
    rcases getElem?_set_cases ha hk hk' with rfl | ⟨hkb, -, rfl⟩
    · exact absurd rfl hne
    · exact .inl ⟨rfl, kb, vmode, fan, swing, target, hkb, hi⟩
  · exact (hkept (execSeedZone_map_slots (fun _ _ _ _ _ _ => rfl) hc)).elim
  · exact (hkept rfl).elim
  · obtain ⟨su, hu, hrx⟩ := exists_slot_of_map_slots (rxBytes_map_slots responded_pend hb) hk
    obtain ⟨hclear, -⟩ := tick_pend hu hk' (hrx ▸ hne)
    exact .inr ⟨hclear, .inr (.inl ⟨now, bytes, hi⟩)⟩
  · exact (hkept (rxBytes_map_slots responded_pend hb)).elim
  · exact (hkept rfl).elim

/-- Settles O52: `exec_pend`, read once for a slot that becomes pending and once for one that ceases to be. -/
theorem pendSingleWriterSingleClearer : Obligations.PendSingleWriterSingleClearer := by
  intro i s t k sl sl' h hk hk'
  constructor
  · intro hp hp'
    rcases exec_pend h hk hk' (by simp [hp, hp']) with ⟨-, hset⟩ | ⟨hclear, -⟩
    · exact hset
    · simp [hp'] at hclear
  · intro hp hp'
    rcases exec_pend h hk hk' (by simp [hp, hp']) with ⟨hset, -⟩ | ⟨-, hi | hi | ⟨now, hi, hidle, hst, ha, hz⟩⟩
    · simp [hp'] at hset
    · exact .inl hi
    · exact .inr (.inl hi)
    · obtain ⟨hlo, hhi⟩ := (slotActive_iff sl).1 ha
      exact .inr (.inr ⟨now, hi, hidle, hst, hlo, hhi, hz⟩)

/-! ### The current temperature -/

/-- RX_BYTE changes the current temperature of a slot only where its byte completes a frame, and then to a decoded one. -/
theorem execRxByte_cur {b : Byte} {s t : State} (h : execRxByte b s = .next t) {k : Nat} {sl sl' : Slot}
    (hk : s.slots[k]? = some sl) (hk' : t.slots[k]? = some sl') (hne : (sl'.cur, sl'.curValid) ≠ (sl.cur, sl.curValid)) :
    s.st = .receiving ∧ s.rxcnt = 15 ∧ sl'.curValid = true ∧ ∃ raw, sl'.cur = decCurtemp raw := by
  rcases execRxByte_slots h with hs | ⟨hst, hcnt, j, frame, a, hj, hs⟩
  · rw [hs, hk] at hk'
    cases hk'
    exact absurd rfl hne
  · rcases getElem?_set_cases hj hk (hs ▸ hk') with rfl | ⟨-, -, rfl⟩
    · exact absurd rfl hne
    · exact ⟨hst, hcnt, rfl, _, rfl⟩

/-- Settles O54: every operation but RESET and those that receive bytes keeps CUR and CUR_VALID of all slots, and a received
byte is `execRxByte_cur`. -/
theorem currentTemperatureOnlyByCompletedFrame : Obligations.CurrentTemperatureOnlyByCompletedFrame := by
  intro i s t k sl sl' h hk hk' hne
  have hkept (hmap : t.slots.map (fun a => (a.cur, a.curValid)) = s.slots.map (fun a => (a.cur, a.curValid))) : False :=
    hne (slot_eq_of_map_slots hmap hk hk')
  rcases exec_cases h with ⟨hi, -⟩ | ⟨now, -, rfl⟩ | ⟨b, hi, hb⟩ | ⟨kb, vmode, fan, swing, target, -, hc⟩ |
    ⟨kb, vmode, fan, swing, target, -, hc⟩ | ⟨kb, e, -, -, rfl⟩ | ⟨now, bytes, u, hi, -⟩ | ⟨bytes, hi, -⟩ |
    ⟨-, -, -, -, -, r, rfl⟩
  · exact .inl hi
  · exact (hkept (tick_map_slots (fun _ => rfl) now s)).elim
  · obtain ⟨hst, hcnt, hvalid, raw, hcur⟩ := execRxByte_cur hb hk hk' hne
    exact .inr (.inr (.inr ⟨b, hi, hst, hcnt, hvalid, hcur ▸ decCurtemp_bounds raw⟩))
  · exact (hkept (changeZone_map_slots (fun _ _ _ _ _ _ => rfl) hc)).elim
  · exact (hkept (execSeedZone_map_slots (fun _ _ _ _ _ _ => rfl) hc)).elim
  · exact (hkept rfl).elim
  · exact .inr (.inl ⟨now, bytes, hi⟩)
  · exact .inr (.inr (.inl ⟨bytes, hi⟩))
  · exact (hkept rfl).elim

end Sys2Proof.Proofs
end

section
/-! PROOFS. The transmission registers SEQ, LAST_ID, LAST_ZONE and TX_TS (10_state.md R26 to R28, R31). -/

namespace Sys2Proof.Proofs

open Sys2Proof.Machine Sys2Proof.Safety Sys2Proof.Laws

/-! ### Operations that transmit nothing -/

/-- From `s` to `t` nothing is transmitted and the transmission registers keep their values. -/
def Silent (s t : State) : Prop :=
  t.seq = s.seq ∧ t.lastId = s.lastId ∧ t.lastZone = s.lastZone ∧ t.txTs = s.txTs ∧
    ∃ ev, t.trace = s.trace ++ ev ∧ txCount ev = 0

/-- A tick at `now` takes `s` to `t` by sending one request: it carries the old SEQ and the id of an active slot. -/
def Sends (now : Time) (s t : State) : Prop :=
  ∃ f, s.st = .idle ∧ t.st = .awaitResponse ∧ t.trace = s.trace ++ transmission f ∧ f.length = 8 ∧
    f[2]? = some s.seq ∧ f[3]? = some t.lastZone ∧
    t.seq = s.seq + 1 ∧ t.lastId = s.seq ∧ t.txTs = now ∧ ActiveZone s t.lastZone

theorem txCount_append (es es' : List Event) : txCount (es ++ es') = txCount es + txCount es' := by
  simp [txCount]

theorem Silent.refl (s : State) : Silent s s := ⟨rfl, rfl, rfl, rfl, [], by simp, rfl⟩

theorem Silent.trans {s t u : State} (hst : Silent s t) (htu : Silent t u) : Silent s u := by
  obtain ⟨hseq, hid, hzone, hts, ev, htr, hev⟩ := hst
  obtain ⟨hseq', hid', hzone', hts', ev', htr', hev'⟩ := htu
  exact ⟨hseq'.trans hseq, hid'.trans hid, hzone'.trans hzone, hts'.trans hts, ev ++ ev', by simp [htr', htr],
    by simp [txCount_append, hev, hev']⟩

theorem silent_abandoned (s : State) (code : Nat) : Silent s (abandoned s code) := ⟨rfl, rfl, rfl, rfl, _, rfl, rfl⟩

theorem txCount_dispatchEvents (c : Config) (k : Nat) (frame : List Byte) (sl : Slot) :
    txCount (dispatchEvents c k frame sl) = 0 := by
  simp only [dispatchEvents, txCount_append]
  split_ifs <;> rfl

theorem silent_dispatched (s : State) (k : Nat) (frame : List Byte) (sl : Slot) : Silent s (dispatched s k frame sl) :=
  ⟨rfl, rfl, rfl, rfl, _, rfl, txCount_dispatchEvents s.cfg k frame sl⟩

/-- A received byte transmits nothing. -/
theorem execRxByte_silent {b : Byte} {s t : State} (h : execRxByte b s = .next t) : Silent s t := by
  rcases execRxByte_outcomes h with rfl | ⟨-, -, rfl⟩ | ⟨-, -, rfl⟩ | ⟨code, rfl⟩ | ⟨-, -, k, frame, sl, -, rfl⟩
  · exact Silent.refl t
  · exact Silent.refl s
  · exact Silent.refl s
  · exact silent_abandoned s code
  · exact silent_dispatched s k frame sl

theorem rxBytes_silent {bytes : List Byte} {s t : State} (h : rxBytes bytes s = .next t) : Silent s t := by
  induction bytes generalizing s with
  | nil =>
    cases h
    exact Silent.refl t
  | cons b bytes ih =>
    obtain ⟨u, hu, ht⟩ := andThen_eq_next h
    exact (execRxByte_silent hu).trans (ih ht)

/-! ### TICK -/

/-- A request goes out from SEND with its slot's id, for a slot that is active. -/
theorem sends_send {now : Time} {s u : State} {sl : Slot} (hidle : s.st = .idle) (hmem : sl ∈ s.slots)
    (ha : slotActive sl = true) (hseq : u.seq = s.seq) (htr : u.trace = s.trace) (write : Bit) :
    Sends now s (send sl write now u) := by
  rw [send_eq, hseq, htr]
  exact ⟨_, hidle, rfl, rfl, requestFrame_length .., rfl, rfl, rfl, rfl, rfl, sl, hmem, ha, rfl⟩

theorem Sends.setSlot {now : Time} {s t : State} (h : Sends now s t) (k : Nat) (sl : Slot) :
    Sends now s (setSlot k sl t) := h

/-- A TICK sends a request, or nothing. -/
theorem tick_silent_or_sends (now : Time) (s : State) : Silent s (tick now s) ∨ Sends now s (tick now s) := by
  rcases tick_cases now s with ⟨hidle, k, sl, hp, hk, ht⟩ | ⟨hidle, -, sl, -, hk, ht⟩ | ⟨-, -, -, ht⟩ | ⟨-, -, ht⟩ |
    ⟨-, -, ht⟩
  · obtain ⟨⟨sl', hk', -, ha⟩, -⟩ := (firstPending_eq_some_iff _ _).1 hp
    obtain rfl := Option.some.inj (hk.symm.trans hk')
    rw [ht, writeStep]
    exact .inr ((sends_send hidle (List.mem_of_getElem? hk) ha (by rfl) (by rfl) 1).setSlot k (setPend false sl))
  · simp only [ht, pollStep]
    split
    · next ha => exact .inr (sends_send hidle (List.mem_of_getElem? hk) ha (by rfl) (by rfl) 0)
    · exact .inl (Silent.refl s)
  · rw [ht]
    exact .inl (Silent.refl s)
  · rw [ht]
    exact .inl (silent_abandoned (setRun s) 4)
  · rw [ht]
    exact .inl (Silent.refl s)

/-- Settles O51: a TICK by `tick_silent_or_sends`; every other operation is silent. -/
theorem sequenceAdvancesOnlyByTransmission : Obligations.SequenceAdvancesOnlyByTransmission := by
  intro i s t hreset hdrive h
  rcases exec_cases h with ⟨hi, -⟩ | ⟨now, hi, rfl⟩ | ⟨b, -, hb⟩ | ⟨k, vmode, fan, swing, target, -, hc⟩ |
    ⟨k, vmode, fan, swing, target, -, hc⟩ | ⟨k, e, -, he, rfl⟩ | ⟨now, bytes, u, hi, -⟩ | ⟨bytes, -, hb⟩ |
    ⟨-, -, -, -, -, r, rfl⟩
  · exact absurd hi hreset
  · rcases tick_silent_or_sends now s with hsilent | ⟨f, hsends⟩
    · exact .inl hsilent
    · exact .inr ⟨now, f, hi, hsends⟩
  · exact .inl (execRxByte_silent hb)
  · obtain ⟨sl, p, m, -, -, rfl⟩ := changeZone_eq_next hc
    exact .inl (Silent.refl s)
  · obtain ⟨sl, p, m, -, -, -, rfl⟩ := execSeedZone_eq_next hc
    exact .inl (Silent.refl s)
  · refine .inl ⟨rfl, rfl, rfl, rfl, [e], rfl, ?_⟩
    cases e with
    | txByte b => exact absurd rfl (he b)
    | _ => rfl
  · exact absurd hi (hdrive now bytes)
  · exact .inl (rxBytes_silent hb)
  · exact .inl (Silent.refl s)

end Sys2Proof.Proofs
end

section
/-! PROOFS. The controller's invariants (10_state.md R46, R29): they hold after reset, and each step keeps them. -/

namespace Sys2Proof.Proofs

open Sys2Proof.Machine Sys2Proof.Safety Sys2Proof.Laws

/-! ### Reset -/

/-- Whether a configuration is refused is a matter of its zone ids (00_scope.md R8). -/
theorem configRefused_resetOf (c : Config) (zids : List Int) : configRefused (State.resetOf c zids) = zidsRefused zids := by
  simp [configRefused, State.resetOf, Slot.reset, Function.comp_def]

/-- Settles O57: every register is at its reset value, and RR = N - 1 fits its width because N is at most NZ_MAX. -/
theorem resetMeetsControllerInvariants : Obligations.ResetMeetsControllerInvariants := by
  intro c zids hN hconfig
  have hrr : (State.resetOf c zids).rr = zids.length - 1 := holdRr_last hN
  have hlen : (State.resetOf c zids).slots.length = zids.length := List.length_map _
  exact {
    config := hconfig
    buffer := rfl
    dirLow := rfl
    quiet := fun _ => ⟨rfl, rfl⟩
    receiving := fun h => by cases h
    slotsLegal := by
      simp only [State.resetOf, List.mem_map]
      rintro _ ⟨z, -, rfl⟩
      exact ⟨rfl, rfl⟩
    registry := hlen.trans_le hN
    rrBits := holdRr_lt _ _
    rrIndex := by
      rw [← List.length_eq_zero_iff, hlen, hrr]
      omega
    beforeRun := fun _ => ⟨rfl, rfl, rfl, rfl, rfl, rfl, by rw [hrr, hlen]⟩
    lastZoneActive := fun h => absurd rfl h }

/-- RESET is the reset state under the configuration and zone ids at hand, with the trace and the model's own fields kept. -/
theorem resetRegs_eq (s : State) :
    resetRegs s = { State.resetOf s.cfg (s.slots.map (·.zid)) with
      trace := s.trace, input := s.input, result := s.result, held := s.held } := by
  have hlast : (if 1 ≤ s.slots.length then s.slots.length - 1 else 0) = s.slots.length - 1 := by
    split <;> omega
  simp [resetRegs, State.resetOf, hlast, resetSlot, Function.comp_def]

/-! ### Which parts of the state the invariants read -/

/-- The trace and the model's own fields are free. -/
theorem inv_withOutputs {s : State} (h : Inv s) (trace : List Event) (input : List Record) (result : Option Result)
    (held : List Byte) : Inv { s with trace := trace, input := input, result := result, held := held } := { h with }

/-- An active zone is a matter of the zone ids alone. -/
theorem activeZone_iff (s : State) (zone : Byte) :
    ActiveZone s zone ↔ ∃ z ∈ s.slots.map (·.zid), zidActive z = true ∧ BitVec.ofInt 8 z = zone := by
  simp [ActiveZone, slotActive, slotZone]

/-- A slot may be replaced by one with its zone id and a legal mode and fan. -/
theorem inv_setSlot {s : State} (h : Inv s) {k : Nat} {sl sl' : Slot} (hk : s.slots[k]? = some sl) (hz : sl'.zid = sl.zid)
    (hlegal : modeOk sl'.mode = true ∧ fanOk sl'.fan = true) : Inv (setSlot k sl' s) := by
  have hzids : (setSlot k sl' s).slots.map (·.zid) = s.slots.map (·.zid) := map_zid_set hk hz
  have hlen : (setSlot k sl' s).slots.length = s.slots.length := List.length_set
  exact { h with
    config := by rw [configRefused, hzids]; exact h.config
    slotsLegal := fun a ha => by
      rcases List.mem_or_eq_of_mem_set ha with hmem | rfl
      · exact h.slotsLegal a hmem
      · exact hlegal
    registry := hlen.trans_le h.registry
    rrIndex := by
      rw [← List.length_eq_zero_iff, hlen, List.length_eq_zero_iff]
      exact h.rrIndex
    beforeRun := by
      rw [hlen]
      exact h.beforeRun
    lastZoneActive := fun hst => by
      rw [activeZone_iff, hzids, ← activeZone_iff]
      exact h.lastZoneActive hst }

/-- The cycle may end in any state (41_controller.md R193). -/
theorem inv_endCycle {s : State} (h : Inv s) : Inv (endCycle s) :=
  { h with
    buffer := rfl
    quiet := fun _ => ⟨rfl, rfl⟩
    receiving := fun hst => by cases hst
    beforeRun := fun hrun => ⟨rfl, (h.beforeRun hrun).2⟩
    lastZoneActive := fun hst => absurd rfl hst }

/-- An error's recovery is the end of the cycle (60_exceptions.md R262). -/
theorem inv_abandoned {s : State} (h : Inv s) (code : Nat) : Inv (abandoned s code) :=
  inv_withOutputs (inv_endCycle h) (s.trace ++ [Event.err code 0]) s.input s.result s.held

/-! ### The slots stay legal -/

theorem legal_of_getElem? {s : State} (h : Inv s) {k : Nat} {sl : Slot} (hk : s.slots[k]? = some sl) :
    modeOk sl.mode = true ∧ fanOk sl.fan = true := h.slotsLegal sl (List.mem_of_getElem? hk)

/-- A response writes a mode and a fan of the wire tables, or leaves what the slot had (R191). -/
theorem responded_legal (c : Config) (frame : List Byte) {sl : Slot} (h : modeOk sl.mode = true ∧ fanOk sl.fan = true) :
    modeOk (responded c frame sl).mode = true ∧ fanOk (responded c frame sl).fan = true := by
  have hcommanded : modeOk (respondedCommanded frame sl).mode = true ∧ fanOk (respondedCommanded frame sl).fan = true := by
    simp only [respondedCommanded]
    constructor
    · split
      · next hon => simp only [modeOk, BitVec.toNat_ofNat, decide_eq_true_eq]; omega
      · exact h.1
    · split
      · next hfan => simp only [fanOk, BitVec.toNat_ofNat, decide_eq_true_eq]; omega
      · exact h.2
  simp only [responded]
  split
  · exact h
  · exact hcommanded

/-- A dispatched response writes its slot legally and ends the cycle. -/
theorem inv_dispatched {s : State} (h : Inv s) {k : Nat} {sl : Slot} (hk : s.slots[k]? = some sl) (frame : List Byte) :
    Inv (dispatched s k frame sl) :=
  have hslot := inv_setSlot h hk (responded_zid s.cfg frame sl) (responded_legal s.cfg frame (legal_of_getElem? h hk))
  inv_withOutputs (inv_endCycle hslot) (s.trace ++ dispatchEvents s.cfg k frame sl) s.input s.result s.held

/-- A host's mode is refused above Off, and Off keeps the stored mode (40_codec.md R127). -/
theorem encMode_legal {vmode prev m : BitVec 3} {p : Bit} (h : encMode vmode prev = some (p, m))
    (hprev : modeOk prev = true) : modeOk m = true := by
  revert vmode prev p m
  decide

/-- Auto becomes Low (R129). -/
theorem encFan_legal (fan : BitVec 2) : fanOk (encFan fan) = true := by
  revert fan
  decide

/-! ### RX_BYTE -/

/-- Outside Idle the block may be receiving with any count and buffer that R46 allows. -/
theorem inv_toReceiving {s : State} (h : Inv s) (hst : s.st ≠ .idle) {m : Memory} {n : BitVec 5} (hm : Memory.wf m = true)
    (hn : 1 ≤ n.toNat ∧ n.toNat ≤ 15) (hstart : bufGet m 0 = startByte) :
    Inv { s with rxbuf := m, rxcnt := n, st := .receiving } :=
  { h with
    buffer := hm
    quiet := fun hne => absurd rfl hne
    receiving := fun _ => ⟨hn.1, hn.2, hstart⟩
    beforeRun := fun hrun => absurd (h.beforeRun hrun).1 hst
    lastZoneActive := fun _ => h.lastZoneActive hst }

/-- RX_BYTE from a legal state: noise, the start byte, a byte of data that leaves the start byte at offset 0, or the end of the
cycle. -/
theorem execRxByte_keeps_inv {b : Byte} {s t : State} (h : Inv s) (ht : execRxByte b s = .next t) : Inv t := by
  rcases execRxByte_outcomes ht with rfl | ⟨hst, hb, rfl⟩ | ⟨hst, hlt, rfl⟩ | ⟨code, rfl⟩ | ⟨-, -, k, frame, sl, hk, rfl⟩
  · exact h
  · have hm : Memory.wf (bufPut s.rxbuf 0 b) = true := bufSorted_bufPut h.buffer (Nat.zero_le _) (by decide)
    refine inv_toReceiving h (by simp [hst]) hm (by decide) ?_
    rw [bufGet_bufPut h.buffer, if_pos rfl, hb]
    rfl
  · obtain ⟨hlo, -, hstart⟩ := h.receiving hst
    have hcnt : (s.rxcnt + 1).toNat = s.rxcnt.toNat + 1 := by
      rw [BitVec.toNat_add, Nat.mod_eq_of_lt (by simp; omega)]
      rfl
    have hm : Memory.wf (bufPut s.rxbuf s.rxcnt.toNat b) = true :=
      bufSorted_bufPut h.buffer (Nat.zero_le _) (by simp only [respLen]; omega)
    have hget : bufGet (bufPut s.rxbuf s.rxcnt.toNat b) 0 = startByte := by
      rw [bufGet_bufPut h.buffer, if_neg (by omega), hstart]
    have hbound : 1 ≤ (s.rxcnt + 1).toNat ∧ (s.rxcnt + 1).toNat ≤ 15 := by omega
    have hinv := inv_toReceiving h (by simp [hst]) hm hbound hget
    rwa [← hst] at hinv
  · exact inv_abandoned h code
  · exact inv_dispatched h hk frame

theorem rxBytes_keeps_inv {bytes : List Byte} {s t : State} (h : Inv s) (ht : rxBytes bytes s = .next t) : Inv t := by
  induction bytes generalizing s with
  | nil =>
    cases ht
    exact h
  | cons b bytes ih =>
    obtain ⟨u, hu, ht⟩ := andThen_eq_next ht
    exact ih (execRxByte_keeps_inv h hu) ht

/-! ### TICK -/

/-- With RUN set the reset values of the controller registers are no longer claimed. -/
theorem inv_setRun {s : State} (h : Inv s) : Inv (setRun s) := { h with beforeRun := fun hrun => by cases hrun }

/-- After the first tick a round-robin step moves RR to another slot index, which fits RR's bits (R29, R179). -/
theorem inv_advanceRr {s : State} (h : Inv s) (hrun : s.run = true) (hne : s.slots ≠ []) (now : Time) :
    Inv { s with rr := nextRr s, pollTs := now } :=
  { h with
    rrBits := holdRr_lt _ _
    rrIndex := .inl (nextRr_lt hne)
    beforeRun := fun hf => by simp [hrun] at hf }

/-- After the first tick a request may go out to any active slot (R174). -/
theorem inv_send {s : State} (h : Inv s) (hrun : s.run = true) {sl : Slot} (hmem : sl ∈ s.slots)
    (ha : slotActive sl = true) (write : Bit) (now : Time) : Inv (send sl write now s) := by
  rw [send_eq]
  exact { h with
    buffer := rfl
    dirLow := rfl
    quiet := fun _ => ⟨rfl, rfl⟩
    receiving := fun hst => by cases hst
    beforeRun := fun hf => by simp [hrun] at hf
    lastZoneActive := fun _ => ⟨sl, hmem, ha, rfl⟩ }

/-- TICK sets RUN first, so that its branches may leave the reset values. -/
theorem tick_keeps_inv (now : Time) {s : State} (h : Inv s) : Inv (tick now s) := by
  rcases tick_cases now s with ⟨-, k, sl, hp, hk, ht⟩ | ⟨-, -, sl, -, hk, ht⟩ | ⟨-, -, -, ht⟩ | ⟨-, -, ht⟩ | ⟨-, -, ht⟩
  · obtain ⟨⟨sl', hk', -, ha⟩, -⟩ := (firstPending_eq_some_iff _ _).1 hp
    obtain rfl := Option.some.inj (hk.symm.trans hk')
    have hsent : Inv (send sl 1 now (setRun s)) :=
      inv_send (inv_setRun h) rfl (List.mem_of_getElem? hk) ha 1 now
    have hslots : (send sl 1 now (setRun s)).slots[k]? = some sl := by rw [send_eq]; exact hk
    have hlegal := legal_of_getElem? h hk
    rw [ht, writeStep]
    exact inv_setSlot hsent hslots rfl hlegal
  · have hmem : sl ∈ s.slots := List.mem_of_getElem? hk
    have hrr := inv_advanceRr (inv_setRun h) rfl (List.ne_nil_of_mem hmem) now
    simp only [ht, pollStep]
    split
    · next ha => exact inv_send hrr rfl hmem ha 0 now
    · exact hrr
  · rw [ht]
    exact inv_setRun h
  · rw [ht]
    exact inv_abandoned (inv_setRun h) 4
  · rw [ht]
    exact inv_setRun h

/-! ### Any operation, and a step -/

theorem exec_keeps_inv {i : Instr} {s t : State} (h : Inv s) (ht : exec i s = .next t) : Inv t := by
  rcases exec_cases ht with ⟨-, hconfig, rfl⟩ | ⟨now, -, rfl⟩ | ⟨b, -, hb⟩ | ⟨k, vmode, fan, swing, target, -, hc⟩ |
    ⟨k, vmode, fan, swing, target, -, hc⟩ | ⟨k, e, -, -, rfl⟩ | ⟨now, bytes, u, -, hb, rfl⟩ | ⟨bytes, -, hb⟩ |
    ⟨-, -, -, -, -, r, rfl⟩
  · have hreset := resetMeetsControllerInvariants s.cfg (s.slots.map (·.zid)) (by simpa using h.registry)
      (by rw [configRefused_resetOf]; exact hconfig)
    rw [resetRegs_eq]
    exact inv_withOutputs hreset s.trace s.input s.result s.held
  · exact tick_keeps_inv now h
  · exact execRxByte_keeps_inv h hb
  · obtain ⟨sl, p, m, hk, hm, rfl⟩ := changeZone_eq_next hc
    exact inv_setSlot h hk rfl ⟨encMode_legal hm (legal_of_getElem? h hk).1, encFan_legal fan⟩
  · obtain ⟨sl, p, m, hk, hm, -, rfl⟩ := execSeedZone_eq_next hc
    exact inv_setSlot h hk rfl ⟨encMode_legal hm (legal_of_getElem? h hk).1, encFan_legal fan⟩
  · exact inv_withOutputs h (s.trace ++ [e]) s.input s.result s.held
  · have htick := tick_keeps_inv now (rxBytes_keeps_inv h hb)
    exact inv_withOutputs htick (tick now u).trace (tick now u).input (tick now u).result (bytes.drop s.cfg.rxMax)
  · exact rxBytes_keeps_inv h hb
  · exact inv_withOutputs h s.trace s.input (some r) s.held

/-- Settles O56: a step waits, or performs an operation on the state with the record taken off the input. -/
theorem stepKeepsControllerInvariants : Obligations.StepKeepsControllerInvariants := by
  intro s t h hstep
  rcases step_cases hstep with ⟨-, rfl⟩ | ⟨r, rest, i, -, -, -, hexec⟩
  · exact h
  · exact exec_keeps_inv (inv_withOutputs h s.trace rest s.result s.held) hexec

end Sys2Proof.Proofs
end

section
/-! PROOFS. The direction bracket (20_memory.md R71, R72, R173): every event an operation appends is outside a transmission, or
part of a whole one. -/

namespace Sys2Proof.Proofs

open Sys2Proof.Machine Sys2Proof.Safety Sys2Proof.Laws

/-! ### Traces -/

/-- A broken bracket stays broken. -/
@[simp] theorem txPhase_none (es : List Event) : txPhase none es = none := by cases es <;> rfl

theorem txPhase_append (p : Option TxPhase) (es es' : List Event) :
    txPhase p (es ++ es') = txPhase (txPhase p es) es' := by
  induction es generalizing p with
  | nil => cases p <;> rfl
  | cons e es ih =>
    cases p with
    | none => simp
    | some p => exact ih _

/-- One whole sequence after another is whole: between the two DIR is deasserted. -/
theorem bracketed_append {es es' : List Event} (h : Bracketed es) (h' : Bracketed es') : Bracketed (es ++ es') := by
  rw [Bracketed, txPhase_append, h, h']

/-- Bytes written inside a transmission are counted, up to the eighth. -/
theorem txPhase_sending (f : List Byte) {n : Nat} (h : n + f.length ≤ 8) :
    txPhase (some (.sending n)) (f.map .txByte) = some (.sending (n + f.length)) := by
  induction f generalizing n with
  | nil => rfl
  | cons b f ih =>
    rw [List.length_cons] at h
    have hnext : txNext (.sending n) (.txByte b) = some (.sending (n + 1)) := if_pos (by omega)
    rw [List.map_cons, txPhase, hnext, ih (by omega), List.length_cons]
    congr 2
    omega

/-- TRANSMIT of eight bytes emits one whole bracket. -/
theorem bracketed_transmission {f : List Byte} (h : f.length = 8) : Bracketed (transmission f) := by
  have hbytes : txPhase (some (.sending 0)) (f.map .txByte) = some (.sending 8) := by
    rw [txPhase_sending f (by omega), h]
  rw [Bracketed, transmission, txPhase, txNext, txPhase_append, hbytes]
  rfl

theorem bracketed_dispatchEvents (c : Config) (k : Nat) (frame : List Byte) (sl : Slot) :
    Bracketed (dispatchEvents c k frame sl) := by
  refine bracketed_append (bracketed_append ?_ ?_) ?_ <;> split <;> rfl

/-! ### The operations that emit -/

theorem execRxByte_keeps_bracketed {b : Byte} {s t : State} (h : Bracketed s.trace) (ht : execRxByte b s = .next t) :
    Bracketed t.trace := by
  rcases execRxByte_outcomes ht with rfl | ⟨-, -, rfl⟩ | ⟨-, -, rfl⟩ | ⟨code, rfl⟩ | ⟨-, -, k, frame, sl, -, rfl⟩
  · exact h
  · exact h
  · exact h
  · exact bracketed_append h rfl
  · exact bracketed_append h (bracketed_dispatchEvents s.cfg k frame sl)

theorem rxBytes_keeps_bracketed {bytes : List Byte} {s t : State} (h : Bracketed s.trace)
    (ht : rxBytes bytes s = .next t) : Bracketed t.trace := by
  induction bytes generalizing s with
  | nil =>
    cases ht
    exact h
  | cons b bytes ih =>
    obtain ⟨u, hu, ht⟩ := andThen_eq_next ht
    exact ih (execRxByte_keeps_bracketed h hu) ht

/-- SEND transmits the eight bytes of a request frame (41_controller.md R174). -/
theorem send_keeps_bracketed {s : State} (h : Bracketed s.trace) (sl : Slot) (write : Bit) (now : Time) :
    Bracketed (send sl write now s).trace := by
  rw [send_eq]
  exact bracketed_append h (bracketed_transmission (requestFrame_length ..))

theorem tick_keeps_bracketed (now : Time) {s : State} (h : Bracketed s.trace) : Bracketed (tick now s).trace := by
  rcases tick_cases now s with ⟨-, k, sl, -, -, ht⟩ | ⟨-, -, sl, -, -, ht⟩ | ⟨-, -, -, ht⟩ | ⟨-, -, ht⟩ | ⟨-, -, ht⟩
  · rw [ht, writeStep, setSlot_trace]
    exact send_keeps_bracketed (s := setRun s) h sl 1 now
  · simp only [ht, pollStep]
    split
    · exact send_keeps_bracketed (s := { setRun s with rr := _, pollTs := _ }) h sl 0 now
    · exact h
  · rw [ht]
    exact h
  · rw [ht]
    exact bracketed_append h rfl
  · rw [ht]
    exact h

/-- GET_ZONE reports its slot in one event and does nothing else (42_host_interface.md R223). -/
theorem execGetZone_eq_next {k : Byte} {s t : State} (h : execGetZone k s = .next t) :
    ∃ sl, s.slots[k.toNat]? = some sl ∧
      t = emit (.getResult k.toNat (slotVmode sl) sl.fan sl.swing sl.target (reportedCur sl) sl.pend) s := by
  obtain ⟨sl, hk, hf⟩ := withSlot_eq_next h
  cases hf
  exact ⟨sl, hk, rfl⟩

/-! ### Any operation, and a step -/

theorem exec_keeps_bracketed {i : Instr} {s t : State} (h : Bracketed s.trace) (ht : exec i s = .next t) :
    Bracketed t.trace := by
  rcases exec_cases ht with ⟨-, -, rfl⟩ | ⟨now, -, rfl⟩ | ⟨b, -, hb⟩ | ⟨k, vmode, fan, swing, target, -, hc⟩ |
    ⟨k, vmode, fan, swing, target, -, hc⟩ | ⟨k, e, rfl, -, -⟩ | ⟨now, bytes, u, -, hb, rfl⟩ | ⟨bytes, -, hb⟩ |
    ⟨-, -, -, -, -, r, rfl⟩
  · exact h
  · exact tick_keeps_bracketed now h
  · exact execRxByte_keeps_bracketed h hb
  · obtain ⟨sl, p, m, -, -, rfl⟩ := changeZone_eq_next hc
    exact h
  · obtain ⟨sl, p, m, -, -, -, rfl⟩ := execSeedZone_eq_next hc
    exact h
  · obtain ⟨sl, -, rfl⟩ := execGetZone_eq_next ht
    exact bracketed_append h rfl
  · exact tick_keeps_bracketed now (rxBytes_keeps_bracketed h hb)
  · exact rxBytes_keeps_bracketed h hb
  · exact h

/-- Settles O58: a step waits, or performs an operation, and each operation appends whole brackets or events outside them. -/
theorem stepKeepsDirectionBracket : Obligations.StepKeepsDirectionBracket := by
  intro s t h hstep
  rcases step_cases hstep with ⟨-, rfl⟩ | ⟨r, rest, i, -, -, -, hexec⟩
  · exact h
  · exact exec_keeps_bracketed (s := { s with input := rest }) h hexec

end Sys2Proof.Proofs
end

section
/-! PROOFS. A response frame received whole (30_encoding.md R86, 41_controller.md R185 to R187): its bytes fill the buffer in
order, and the sixteenth dispatches them. -/

namespace Sys2Proof.Proofs

open Sys2Proof.Machine Sys2Proof.Safety Sys2Proof.Laws

/-! ### The received bytes in the buffer -/

/-- The first `n` bytes of the buffer, offset 0 first. -/
def bufFirst (m : Memory) (n : Nat) : List Byte := (List.range n).map (bufGet m)

/-- The frame that a byte completes is what the buffer holds before it, and the byte. -/
theorem completedFrame_eq (s : State) (b : Byte) : completedFrame s b = bufFirst s.rxbuf 15 ++ [b] := rfl

/-- A byte stored behind the first `n` extends them (20_memory.md R61). -/
theorem bufFirst_bufPut {m : Memory} (hm : Memory.wf m = true) (n : Nat) (b : Byte) :
    bufFirst (bufPut m n b) (n + 1) = bufFirst m n ++ [b] := by
  have hbefore : ∀ a ∈ List.range n, bufGet (bufPut m n b) a = bufGet m a := fun a ha => by
    rw [bufGet_bufPut hm, if_neg (List.mem_range.1 ha).ne]
  rw [bufFirst, List.range_succ, List.map_append, List.map_congr_left hbefore, List.map_singleton, bufGet_bufPut hm,
    if_pos rfl, bufFirst]

/-- The state in the middle of a frame, of which `n` bytes stand in the buffer `m`. -/
def receivingIn (s : State) (m : Memory) (n : BitVec 5) : State := { s with st := .receiving, rxbuf := m, rxcnt := n }

/-- START takes AwaitResponse into the middle of a frame (R185). -/
theorem execRxByte_start_receivingIn {s : State} (h : s.st = .awaitResponse) :
    execRxByte 0x10 s = .next (receivingIn s (bufPut s.rxbuf 0 0x10) 1) := execRxByte_start h

theorem rxBytes_singleton (b : Byte) (s : State) : rxBytes [b] s = execRxByte b s := by
  rw [rxBytes]
  cases execRxByte b s <;> rfl

/-- Bytes that leave the frame short of its sixteenth are appended, in order, and nothing else happens (R186). -/
theorem rxBytes_receivingIn (bytes : List Byte) (s : State) {m : Memory} {n : BitVec 5} (hm : Memory.wf m = true)
    (hlen : n.toNat + bytes.length ≤ 15) :
    ∃ m' n', rxBytes bytes (receivingIn s m n) = .next (receivingIn s m' n') ∧ Memory.wf m' = true ∧
      n'.toNat = n.toNat + bytes.length ∧ bufFirst m' n'.toNat = bufFirst m n.toNat ++ bytes := by
  induction bytes generalizing m n with
  | nil => exact ⟨m, n, rfl, hm, rfl, (List.append_nil _).symm⟩
  | cons b bytes ih =>
    rw [List.length_cons] at hlen
    have hcnt : (n + 1).toNat = n.toNat + 1 := by
      rw [BitVec.toNat_add, Nat.mod_eq_of_lt (by simp; omega)]
      rfl
    have hput : Memory.wf (bufPut m n.toNat b) = true :=
      bufSorted_bufPut hm (Nat.zero_le _) (by simp only [respLen]; omega)
    have hbyte : execRxByte b (receivingIn s m n) = .next (receivingIn s (bufPut m n.toNat b) (n + 1)) :=
      execRxByte_append b (s := receivingIn s m n) rfl (by simp only [receivingIn]; omega)
    obtain ⟨m', n', hrest, hwf, hn, hpre⟩ := ih hput (n := n + 1) (by omega)
    refine ⟨m', n', ?_, hwf, ?_, ?_⟩
    · rw [rxBytes, hbyte, andThen_next, hrest]
    · rw [hn, hcnt, List.length_cons]
      omega
    · rw [hpre, hcnt, bufFirst_bufPut hm, List.append_assoc, List.singleton_append]

/-! ### The completed frame -/

/-- A frame that answers the outstanding request is correlated as CORRELATE judges it (41_controller.md R188). -/
theorem correlate_of_correlated {s : State} {frame : List Byte} (h : Correlated s frame) :
    correlate (frame.getD 4 0) (responseId s.cfg frame) s.lastZone s.lastId = true := by
  obtain ⟨hzone, id, hid, hlast⟩ := h
  rw [responseId_of_getElem? hid]
  exact (correlate_iff _ _ _ _).2 ⟨hzone, hlast⟩

/-- FRAME_COMPLETE on a good, correlated frame dispatches it to the one slot with its zone id (R187, R190). -/
theorem frameComplete_eq_dispatched {s : State} {k : Nat} {sl : Slot} (hconfig : configRefused s = false)
    (hgood : ChecksumGood (bufBytes s.rxbuf)) (hcorr : Correlated s (bufBytes s.rxbuf)) (hk : s.slots[k]? = some sl)
    (hz : sl.zid = (s.lastZone.toNat : Int)) : frameComplete s = dispatched s k (bufBytes s.rxbuf) sl := by
  have hslot : slotOf s.slots s.lastZone = some k := slotOf_eq_some_of hconfig hk hz
  rcases frameComplete_cases s with ⟨hbad, -⟩ | ⟨-, hno, -⟩ | ⟨-, -, hno, -⟩ | ⟨-, -, j, sl', hj, hsl', hf⟩
  · exact absurd hgood hbad
  · exact absurd (correlate_of_correlated hcorr) (Bool.eq_false_iff.1 hno)
  · simp [(slotOf_eq_none_iff s s.lastZone).2 hno] at hslot
  · obtain rfl := Option.some.inj (hslot.symm.trans hj)
    obtain rfl := Option.some.inj (hk.symm.trans hsl')
    exact hf

/-- The sixteenth byte of a good, correlated frame dispatches the frame (R187). -/
theorem execRxByte_eq_dispatched {s : State} {b : Byte} {k : Nat} {sl : Slot} (hst : s.st = .receiving)
    (hcnt : s.rxcnt.toNat = 15) (hm : Memory.wf s.rxbuf = true) (hconfig : configRefused s = false)
    (hgood : ChecksumGood (completedFrame s b)) (hcorr : Correlated s (completedFrame s b)) (hk : s.slots[k]? = some sl)
    (hz : sl.zid = (s.lastZone.toNat : Int)) :
    execRxByte b s = .next (dispatched s k (completedFrame s b) sl) := by
  have hframe : bufBytes (bufPut s.rxbuf 15 b) = completedFrame s b := bufBytes_bufPut_last hm b
  rw [← hframe] at hgood hcorr ⊢
  have hdone := frameComplete_eq_dispatched (s := { s with rxbuf := bufPut s.rxbuf 15 b, rxcnt := 16 }) hconfig hgood hcorr
    hk hz
  rw [execRxByte_complete b hst hcnt, hdone]
  rfl

/-- Sixteen bytes from the start byte on are the start byte, fourteen bytes of data and the checksum byte. -/
theorem frame_eq_cons_append {frame : List Byte} (hlen : frame.length = 16) (hhead : frame.head? = some 0x10) :
    ∃ mid last, frame = 0x10 :: (mid ++ [last]) ∧ mid.length = 14 := by
  obtain ⟨rest, rfl⟩ := List.head?_eq_some_iff.1 hhead
  have hne : rest ≠ [] := by
    rintro rfl
    simp at hlen
  refine ⟨rest.dropLast, rest.getLast hne, by rw [List.dropLast_append_getLast hne], ?_⟩
  rw [List.length_dropLast]
  simp only [List.length_cons] at hlen
  omega

/-- Settles O42: START, fourteen APPEND (`rxBytes_receivingIn`), and the byte that completes the frame. -/
theorem frameRespDispatched : Obligations.FrameRespDispatched := by
  intro s frame k sl hst hbuf hconfig hlen hhead hgood hcorr hk hz
  have hok : respFrameOk frame = true := by simp [respFrameOk, hlen, hhead, respLen, startByte]
  obtain ⟨mid, last, rfl, hmid⟩ := frame_eq_cons_append hlen hhead
  have hstart : bufFirst (bufPut s.rxbuf 0 0x10) (1 : BitVec 5).toNat = [0x10] := by
    rw [hbuf]
    rfl
  obtain ⟨m, n, hmidrx, hm, hn, hpre⟩ := rxBytes_receivingIn mid s (m := bufPut s.rxbuf 0 0x10) (n := 1)
    (by rw [hbuf]; rfl) (by simp [hmid])
  have hn15 : n.toNat = 15 := by simpa [hmid] using hn
  have hframe : completedFrame (receivingIn s m n) last = 0x10 :: (mid ++ [last]) := by
    rw [hn15, hstart] at hpre
    rw [completedFrame_eq, receivingIn, hpre]
    rfl
  rw [← hframe] at hgood hcorr
  have hlast : execRxByte last (receivingIn s m n) = .next (dispatched s k (completedFrame (receivingIn s m n) last) sl) :=
    execRxByte_eq_dispatched rfl hn15 hm hconfig hgood hcorr hk hz
  calc exec (.frameResp (0x10 :: (mid ++ [last]))) s
      = rxBytes (0x10 :: (mid ++ [last])) s := if_pos hok
    _ = rxBytes (mid ++ [last]) (receivingIn s (bufPut s.rxbuf 0 0x10) 1) := by
      rw [rxBytes, execRxByte_start_receivingIn hst, andThen_next]
    _ = execRxByte last (receivingIn s m n) := by rw [rxBytes_append, hmidrx, andThen_next, rxBytes_singleton]
    _ = .next (dispatched s k (0x10 :: (mid ++ [last])) sl) := by rw [hlast, hframe]

end Sys2Proof.Proofs
end

section
/-! PROOFS. Performing one operation: the next one presented (20_memory.md R66, R70), one repeated (R65), and none that faults
(R60). -/

namespace Sys2Proof.Proofs

open Sys2Proof.Machine Sys2Proof.Safety Sys2Proof.Laws

/-! ### The next presented operation -/

theorem fetch_eq_operation {s : State} {r : Record} {rest : List Record} {i : Instr} (hinput : s.input = r :: rest)
    (hconfig : configRefused s = false) (hdecode : decode s.cfg r = .ok i) :
    fetch s = .operation i { s with input := rest } := by
  simp [fetch, hinput, hconfig, hdecode]

/-- Settles O1: the operation fetched is performed. -/
theorem stepPerformsNextOperation : Obligations.StepPerformsNextOperation := by
  intro s r rest i hinput hconfig hdecode _
  rw [step, fetch_eq_operation hinput hconfig hdecode]

/-! ### A repeated SET_ZONE -/

/-- A state-change request writes its slot where ENC_MODE answers. -/
theorem changeZone_eq_setSlot {k : Byte} {vmode : BitVec 3} {s : State} {sl : Slot} {p : Bit} {m : BitVec 3}
    (hk : s.slots[k.toNat]? = some sl) (hm : encMode vmode sl.mode = some (p, m)) (fan : BitVec 2) (swing : Bit)
    (target : Byte) :
    changeZone k vmode fan swing target s =
      .next (setSlot k.toNat (setPend true (commandSlot p m fan swing target sl)) s) := by
  simp [changeZone, withSlot, hk, hm]

/-- ENC_MODE gives its answer again on the mode it answered: Off keeps that mode, and every other code is its own mode. -/
theorem encMode_idem {vmode prev m : BitVec 3} {p : Bit} (h : encMode vmode prev = some (p, m)) :
    encMode vmode m = some (p, m) := by
  simp only [encMode] at h ⊢
  split at h
  · next hoff =>
    cases h
    exact if_pos hoff
  · next hon =>
    rw [if_neg hon]
    exact h

theorem setSlot_setSlot (k : Nat) (sl sl' : Slot) (s : State) : setSlot k sl' (setSlot k sl s) = setSlot k sl' s := by
  simp [setSlot]

/-- Settles O46: the second request finds in the slot what it writes there. -/
theorem setZoneIdempotent : Obligations.SetZoneIdempotent := by
  intro s t k vmode fan swing target h
  obtain ⟨sl, p, m, hk, hm, rfl⟩ := changeZone_eq_next h
  have hk' : (setSlot k.toNat (setPend true (commandSlot p m fan swing target sl)) s).slots[k.toNat]? =
      some (setPend true (commandSlot p m fan swing target sl)) :=
    List.getElem?_set_self (List.getElem?_eq_some_iff.1 hk).1
  have hagain := changeZone_eq_setSlot hk' (encMode_idem hm) fan swing target
  rw [setSlot_setSlot] at hagain
  exact hagain

/-! ### Faults -/

/-- Settles O32: APPEND writes at RXCNT, which lies outside the buffer. -/
theorem offsetOutsideBufferFaults : Obligations.OffsetOutsideBufferFaults := by
  intro s b hst hcnt
  simp only [exec, execRxByte, hst, appendByte, memWrite_eq_error b s.rxbuf hcnt]

theorem andThen_eq_fault {o : Answer} {f : State → Answer} {r : Fault} (h : andThen o f = .fault r) :
    o = .fault r ∨ ∃ u, o = .next u ∧ f u = .fault r := by
  cases o with
  | next u => exact .inr ⟨u, rfl, h⟩
  | fault r' => exact .inl h
  | refused r' => cases h

theorem withSlot_eq_fault {k : Byte} {s : State} {f : Slot → Answer} {r : Fault} (h : withSlot k s f = .fault r) :
    ∃ sl, f sl = .fault r := by
  unfold withSlot at h
  split at h
  · cases h
  · exact ⟨_, h⟩

/-- Only a received byte reaches the buffer, so that every fault is one of a sequence of received bytes. -/
theorem exec_eq_fault {i : Instr} {s : State} {f : Fault} (h : exec i s = .fault f) :
    ∃ bytes, rxBytes bytes s = .fault f := by
  cases i
  case rxByte b =>
    simp only [exec] at h
    exact ⟨[b], (rxBytes_singleton b s).trans h⟩
  case drive now bytes =>
    rcases andThen_eq_fault h with hb | ⟨u, -, hu⟩
    · exact ⟨_, hb⟩
    · cases hu
  case frameResp bytes =>
    simp only [exec, execFrameResp] at h
    split at h
    · exact ⟨_, h⟩
    · cases h
  case reset =>
    simp only [exec, execReset] at h
    split at h <;> cases h
  case getZone k =>
    obtain ⟨sl, hf⟩ := withSlot_eq_fault h
    cases hf
  case setZone | requestChange =>
    obtain ⟨sl, hf⟩ := withSlot_eq_fault h
    split at hf <;> cases hf
  case seedZone k vmode fan swing target =>
    obtain ⟨sl, hf⟩ := withSlot_eq_fault h
    split at hf
    · cases hf
    · split at hf <;> cases hf
  case decodeResponse bytes =>
    simp only [exec, execDecodeResponse] at h
    split at h
    · split at h <;> cases h
    · cases h
  case encMode vmode prev =>
    simp only [exec, execEncMode] at h
    split at h
    · cases h
    · split at h <;> cases h
  case checksum | verifyChecksum | encodeRequest | packMsf | frameReq =>
    simp only [exec, execChecksum, execVerifyChecksum, execEncodeRequest, execPackMsf, execFrameReq] at h
    split at h <;> cases h
  all_goals cases h

/-- RXCNT stays below 16 from a legal state on, so that received bytes have their offsets in the buffer (10_state.md R46). -/
theorem rxBytes_completes (bytes : List Byte) {s : State} (h : Inv s) : ∃ t, rxBytes bytes s = .next t := by
  induction bytes generalizing s with
  | nil => exact ⟨s, rfl⟩
  | cons b bytes ih =>
    obtain ⟨u, hu⟩ := execRxByte_completes b fun hst => Nat.lt_succ_of_le (h.receiving hst).2.1
    rw [rxBytes, hu, andThen_next]
    exact ih (execRxByte_keeps_inv h hu)

/-- Settles O59: a fault is one of received bytes, and those complete. -/
theorem noFaultUnderInvariants : Obligations.NoFaultUnderInvariants := by
  intro s i f h hfault
  obtain ⟨bytes, hbytes⟩ := exec_eq_fault hfault
  obtain ⟨t, ht⟩ := rxBytes_completes bytes h
  simp [ht] at hbytes

end Sys2Proof.Proofs
end

section
/-! PROOFS. The records of the operations and of the wire frames (30_encoding.md R81 to R106): what each operand reader reads,
stated both ways, and from that the two round trips between decoder and encoder. -/

namespace Sys2Proof.Proofs

open Sys2Proof.Machine Sys2Proof.Safety Sys2Proof.Laws

/-! ### What the operand readers read -/

/-- A reader that reads one thing and then another answers where both do; by it each reader below reads exactly the bytes of its
operands. -/
theorem except_bind_eq_ok {ε α β : Type} {x : Except ε α} {f : α → Except ε β} {b : β} :
    (x >>= f) = .ok b ↔ ∃ a, x = .ok a ∧ f a = .ok b := by
  cases x <;> simp [bind, Except.bind]

theorem takeField_eq_ok_iff {w : Nat} (hw : w ≤ 8) {bytes rest : List Byte} {v : BitVec w} :
    takeField w bytes = .ok (v, rest) ↔ bytes = zext8 v :: rest := by
  constructor
  · exact takeField_eq_ok
  · rintro rfl
    exact takeField_zext8 hw v rest

theorem takeTime_eq_ok_iff {bytes rest : List Byte} {t : Time} :
    takeTime bytes = .ok (t, rest) ↔ bytes = timeBytes t ++ rest := by
  constructor
  · exact takeTime_eq_ok
  · rintro rfl
    exact takeTime_timeBytes t rest

/-- A counted sequence is no longer than its count can announce. -/
theorem takeBytes_length_lt {w : Nat} {bytes bs rest : List Byte} (h : takeBytes w bytes = .ok (bs, rest)) :
    bs.length < 2 ^ w := by
  obtain ⟨⟨n, tail⟩, -, h⟩ := except_bind_eq_ok.1 h
  dsimp only at h
  split at h
  · cases h
    exact Nat.lt_of_le_of_lt (List.length_take_le _ _) n.isLt
  · cases h

theorem takeBytes_eq_ok_iff {w : Nat} (hw : w ≤ 8) {bytes bs : List Byte} :
    takeBytes w bytes = .ok (bs, []) ↔ bytes = countedBytes bs ∧ bs.length < 2 ^ w := by
  constructor
  · exact fun h => ⟨takeBytes_eq_ok h, takeBytes_length_lt h⟩
  · rintro ⟨rfl, hlt⟩
    exact takeBytes_countedBytes hw hlt

theorem takeOne_eq_ok_iff {w : Nat} (hw : w ≤ 8) {mk : BitVec w → Instr} {bytes rest : List Byte} {i : Instr} :
    takeOne mk bytes = .ok (i, rest) ↔ ∃ v, bytes = zext8 v :: rest ∧ mk v = i := by
  simp [takeOne, except_bind_eq_ok, takeField_eq_ok_iff hw]

theorem takeTwo_eq_ok_iff {v w : Nat} (hv : v ≤ 8) (hw : w ≤ 8) {mk : BitVec v → BitVec w → Instr} {bytes rest : List Byte}
    {i : Instr} :
    takeTwo mk bytes = .ok (i, rest) ↔ ∃ x y, bytes = zext8 x :: zext8 y :: rest ∧ mk x y = i := by
  simp [takeTwo, except_bind_eq_ok, takeField_eq_ok_iff hv, takeField_eq_ok_iff hw]

theorem takeZone_eq_ok_iff {mk : Byte → BitVec 3 → BitVec 2 → Bit → Byte → Instr} {bytes rest : List Byte} {i : Instr} :
    takeZone mk bytes = .ok (i, rest) ↔ ∃ k vmode fan swing target,
      bytes = k :: zext8 vmode :: zext8 fan :: zext8 swing :: target :: rest ∧ mk k vmode fan swing target = i := by
  simp [takeZone, except_bind_eq_ok, takeField_eq_ok_iff]

theorem takeSequence_eq_ok_iff {mk : List Byte → Instr} {bytes : List Byte} {i : Instr} :
    takeSequence mk bytes = .ok (i, []) ↔ ∃ bs, bytes = countedBytes bs ∧ bs.length < 32 ∧ mk bs = i := by
  simp [takeSequence, except_bind_eq_ok, takeBytes_eq_ok_iff, and_assoc]

theorem takeRequest_eq_ok_iff {bytes rest : List Byte} {i : Instr} :
    takeRequest bytes = .ok (i, rest) ↔ ∃ zone reqId write power mode swing fan target,
      bytes = zone :: reqId :: zext8 write :: zext8 power :: zext8 mode :: zext8 swing :: zext8 fan :: target :: rest ∧
        .encodeRequest zone reqId write power mode swing fan target = i := by
  simp [takeRequest, except_bind_eq_ok, takeField_eq_ok_iff]

theorem takeMsf_eq_ok_iff {bytes rest : List Byte} {i : Instr} :
    takeMsf bytes = .ok (i, rest) ↔ ∃ mode swing fan,
      bytes = zext8 mode :: zext8 swing :: zext8 fan :: rest ∧ .packMsf mode swing fan = i := by
  simp [takeMsf, except_bind_eq_ok, takeField_eq_ok_iff]

theorem takeCorrelate_eq_ok_iff {bytes rest : List Byte} {i : Instr} :
    takeCorrelate bytes = .ok (i, rest) ↔ ∃ respZone respId lastZone lastId,
      bytes = respZone :: respId :: lastZone :: lastId :: rest ∧ .correlate respZone respId lastZone lastId = i := by
  simp [takeCorrelate, except_bind_eq_ok, takeField_eq_ok_iff]

theorem takeDrive_eq_ok_iff {bytes : List Byte} {i : Instr} :
    takeDrive bytes = .ok (i, []) ↔ ∃ now bs,
      bytes = timeBytes now ++ countedBytes bs ∧ bs.length < 256 ∧ .drive now bs = i := by
  simp only [takeDrive, except_bind_eq_ok, Prod.exists, takeTime_eq_ok_iff]
  constructor
  · rintro ⟨now, r1, rfl, bs, r2, hbs, hi⟩
    cases hi
    obtain ⟨rfl, hlt⟩ := (takeBytes_eq_ok_iff (Nat.le_refl 8)).1 hbs
    exact ⟨now, bs, rfl, hlt, rfl⟩
  · rintro ⟨now, bs, rfl, hlt, rfl⟩
    exact ⟨now, _, rfl, bs, [], (takeBytes_eq_ok_iff (Nat.le_refl 8)).2 ⟨rfl, hlt⟩, rfl⟩

/-! ### Operation records -/

theorem whole_eq_ok_iff {x : Except DecodeError (Instr × List Byte)} {i : Instr} : whole x = .ok i ↔ x = .ok (i, []) := by
  rcases x with e | ⟨j, _ | ⟨b, bytes⟩⟩ <;> simp [whole]

/-- The operands behind an op code are those the encoder writes for the operation read (R101, R104). -/
theorem encode_of_operandsOf {op : Byte} {operands : List Byte} {i : Instr} (h : operandsOf op operands = .ok (i, []))
    (c : Config) : encode c i = ⟨.op, op :: operands⟩ := by
  unfold operandsOf at h
  split at h
  case h_1 =>
    cases h
    rfl
  case h_2 =>
    obtain ⟨⟨now, r⟩, htime, h⟩ := except_bind_eq_ok.1 h
    cases h
    simp [encode, takeTime_eq_ok htime]
  case h_3 | h_6 | h_13 | h_14 | h_15 | h_16 | h_19 | h_20 | h_21 =>
    obtain ⟨v, rfl, rfl⟩ := (takeOne_eq_ok_iff (by decide)).1 h
    simp [encode]
  case h_4 | h_5 =>
    obtain ⟨k, vmode, fan, swing, target, rfl, rfl⟩ := takeZone_eq_ok_iff.1 h
    rfl
  case h_7 | h_8 | h_10 =>
    obtain ⟨bs, rfl, -, rfl⟩ := takeSequence_eq_ok_iff.1 h
    rfl
  case h_9 =>
    obtain ⟨zone, reqId, write, power, mode, swing, fan, target, rfl, rfl⟩ := takeRequest_eq_ok_iff.1 h
    rfl
  case h_11 | h_12 | h_17 =>
    obtain ⟨x, y, rfl, rfl⟩ := (takeTwo_eq_ok_iff (by decide) (by decide)).1 h
    rfl
  case h_18 =>
    obtain ⟨mode, swing, fan, rfl, rfl⟩ := takeMsf_eq_ok_iff.1 h
    rfl
  case h_22 =>
    obtain ⟨respZone, respId, lastZone, lastId, rfl, rfl⟩ := takeCorrelate_eq_ok_iff.1 h
    rfl
  case h_23 => cases h

theorem responseCountOk_iff (bytes : List Byte) : responseCountOk bytes = true ↔ bytes.length ≤ 16 := decide_eq_true_iff

theorem checksumCountOk_iff (bytes : List Byte) :
    checksumCountOk bytes = true ↔ 1 ≤ bytes.length ∧ bytes.length ≤ 16 := by
  rw [checksumCountOk, Bool.and_eq_true, decide_eq_true_iff]
  exact and_congr_right fun _ => responseCountOk_iff bytes

/-- The operands of a well-formed operation are read back behind its op code. -/
theorem operandsOf_of_encode {c : Config} {i : Instr} {op : Byte} {operands : List Byte} (hwf : i.wellFormed c = true)
    (henc : encode c i = ⟨.op, op :: operands⟩) : operandsOf op operands = .ok (i.canonical, []) := by
  cases i
  case drive | frameReq | frameResp => cases henc
  all_goals cases henc
  case reset => rfl
  case tick now => exact except_bind_eq_ok.2 ⟨(now, []), takeTime_eq_ok_iff.2 (by simp), rfl⟩
  case rxByte v | getZone v | encTarget v | decTarget v | decCurtemp v | encFan v | decFan v | encSwing v | decSwing v =>
    exact (takeOne_eq_ok_iff (by decide)).2 ⟨v, by simp, rfl⟩
  case setZone | seedZone | requestChange => exact takeZone_eq_ok_iff.2 ⟨_, _, _, _, _, rfl, rfl⟩
  case checksum bytes | verifyChecksum bytes =>
    have hcount := (checksumCountOk_iff bytes).1 hwf
    exact takeSequence_eq_ok_iff.2 ⟨bytes, rfl, by omega, rfl⟩
  case decodeResponse bytes =>
    have hcount := (responseCountOk_iff bytes).1 hwf
    exact takeSequence_eq_ok_iff.2 ⟨bytes, rfl, by omega, rfl⟩
  case encodeRequest => exact takeRequest_eq_ok_iff.2 ⟨_, _, _, _, _, _, _, _, rfl, rfl⟩
  case encMode | decMode | packStatus => exact (takeTwo_eq_ok_iff (by decide) (by decide)).2 ⟨_, _, rfl, rfl⟩
  case packMsf => exact takeMsf_eq_ok_iff.2 ⟨_, _, _, rfl, rfl⟩
  case correlate => exact takeCorrelate_eq_ok_iff.2 ⟨_, _, _, _, rfl, rfl⟩

theorem decode_operation {c : Config} {op : Byte} {operands : List Byte} {i : Instr} :
    decode c ⟨.op, op :: operands⟩ = .ok i ↔ operandsOf op operands = .ok (i, []) := whole_eq_ok_iff

/-- An operation record decodes to the operation it was made from. No configuration enters. -/
theorem decode_operation_of_encode {c : Config} {i : Instr} {op : Byte} {operands : List Byte} (hwf : i.wellFormed c = true)
    (henc : encode c i = ⟨.op, op :: operands⟩) : decode c ⟨.op, op :: operands⟩ = .ok i.canonical :=
  decode_operation.2 (operandsOf_of_encode hwf henc)

/-! ### Wire frames -/

/-- A request frame is read back where its write flag is a bit other than the power bit (R82). -/
theorem decodeRequestFrame_requestFrame {c : Config} (hmask : c.writeFlagMask ≠ 0) (hpower : c.writeFlagMask &&& 1 = 0)
    (zone reqId : Byte) (write power : Bit) (mode : BitVec 3) (swing : Bit) (fan : BitVec 2) {temp : Byte}
    (htemp : tempByteOk c temp = true) :
    decodeRequestFrame c (requestFrame c zone reqId write power mode swing fan temp) =
      .ok (.frameReq reqId zone write power fan swing mode temp) := by
  have hcs : ∀ cs, checksum [c.hdr0, c.hdr1, reqId, zone, packStatus c write power, packMsf mode swing fan, temp, cs] =
      checksum [c.hdr0, c.hdr1, reqId, zone, packStatus c write power, packMsf mode swing fan, temp, 0] :=
    fun cs => checksum_append_last [_, _, _, _, _, _, _] cs 0
  simp only [requestFrame, decodeRequestFrame, List.cons_append, List.nil_append, packStatus_power hpower,
    packStatus_write hmask hpower, packMsf_mode, packMsf_swing, packMsf_fan]
  rw [if_neg (by simp), if_neg (by simp [htemp]), if_neg (by simp [hcs])]

/-- A request frame that decodes is the frame of its fields: it has the configured header, no bit that its fields do not name,
and its checksum (R81 to R85). -/
theorem decodeRequestFrame_eq_ok {c : Config} {bytes : List Byte} {i : Instr} (h : decodeRequestFrame c bytes = .ok i) :
    ∃ zone reqId write power mode swing fan temp, i = .frameReq reqId zone write power fan swing mode temp ∧
      bytes = requestFrame c zone reqId write power mode swing fan temp := by
  unfold decodeRequestFrame at h
  split at h
  · next h0 h1 reqId zone status msf temp cs =>
    dsimp only at h
    generalize (if status &&& c.writeFlagMask = 0 then (0 : Bit) else 1) = write at h
    split_ifs at h with hheader hbits hcs
    cases h
    simp only [ne_eq, not_or, not_not] at hheader hbits hcs
    obtain ⟨rfl, rfl⟩ := hheader
    obtain ⟨hstatus, hmsf, -⟩ := hbits
    refine ⟨_, _, _, _, _, _, _, _, rfl, ?_⟩
    rw [requestFrame, hstatus, hmsf, checksum_append_last _ 0 cs]
    simp [hcs]
  · split at h <;> cases h

/-- A response frame decodes exactly where it has its length and its start byte (R86). -/
theorem decodeResponseFrame_eq_ok_iff {bytes : List Byte} {i : Instr} :
    decodeResponseFrame bytes = .ok i ↔ respFrameOk bytes = true ∧ .frameResp bytes = i := by
  have hok : respFrameOk bytes = true ↔ bytes.length = respLen ∧ bytes.head? = some startByte := by simp [respFrameOk]
  rw [hok, decodeResponseFrame]
  split_ifs with hshort hlong hstart
  · simp [hshort.ne]
  · simp [hlong.ne']
  · simp [hstart, Nat.le_antisymm (Nat.not_lt.1 hlong) (Nat.not_lt.1 hshort)]
  · simp [hstart]

/-! ### The round trips -/

/-- Settles O5: an operation record by its op code, DRIVE's operands and the two wire frames each by their reader. -/
theorem decodeEncodeRoundTrip : Obligations.DecodeEncodeRoundTrip := by
  intro c i hmask hpower hwf
  cases i
  case drive now bytes =>
    exact whole_eq_ok_iff.2 (takeDrive_eq_ok_iff.2 ⟨now, bytes, rfl, Nat.lt_succ_of_le (of_decide_eq_true hwf), rfl⟩)
  case frameReq reqId zone write power fan swing mode temp =>
    exact decodeRequestFrame_requestFrame hmask hpower zone reqId write power mode swing fan (Bool.and_eq_true_iff.1 hwf).2
  case frameResp bytes => exact decodeResponseFrame_eq_ok_iff.2 ⟨hwf, rfl⟩
  all_goals exact decode_operation_of_encode hwf rfl

/-- Settles O6: each format's reader takes its bytes apart exactly as the encoder puts them together. -/
theorem encodeDecodeRoundTrip : Obligations.EncodeDecodeRoundTrip := by
  rintro c ⟨fmt, bytes⟩ i h
  cases fmt
  case op =>
    rcases bytes with _ | ⟨op, operands⟩
    · cases h
    · exact encode_of_operandsOf (decode_operation.1 h) c
  case pseudo =>
    obtain ⟨now, bs, rfl, -, rfl⟩ := takeDrive_eq_ok_iff.1 (whole_eq_ok_iff.1 h)
    rfl
  case req =>
    obtain ⟨zone, reqId, write, power, mode, swing, fan, temp, rfl, rfl⟩ := decodeRequestFrame_eq_ok h
    rfl
  case resp =>
    obtain ⟨-, rfl⟩ := decodeResponseFrame_eq_ok_iff.1 h
    rfl

/-- Settles O4: each printed record is the encoder's. -/
theorem printedRecordsDecode : Obligations.PrintedRecordsDecode := by
  intro c
  exact ⟨decode_operation_of_encode (i := .reset) rfl rfl, decode_operation_of_encode (i := .tick 300) rfl rfl,
    decode_operation_of_encode (i := .rxByte 0x7E) rfl rfl, decode_operation_of_encode (i := .setZone 1 0 1 1 21) rfl rfl,
    decode_operation_of_encode (i := .seedZone 0 4 0 0 24) rfl rfl, decode_operation_of_encode (i := .getZone 1) rfl rfl⟩

end Sys2Proof.Proofs
end

section
/-! PROOFS. Records and operands that are refused (30_encoding.md R99, R102), and the operations that only return a value: the
combinational ones (40_codec.md R120) and FRAME_REQ (30_encoding.md R81). -/

namespace Sys2Proof.Proofs

open Sys2Proof.Machine Sys2Proof.Safety Sys2Proof.Laws

/-! ### Refused records -/

theorem decode_operation_error (c : Config) {op : Byte} {operands : List Byte} {e : DecodeError}
    (h : operandsOf op operands = .error e) : decode c ⟨.op, op :: operands⟩ = .error e := by
  simp [decode, takeOperation, h, whole]

theorem step_badRecord {s : State} {r : Record} {rest : List Record} {e : DecodeError} (hinput : s.input = r :: rest)
    (hconfig : configRefused s = false) (hdecode : decode s.cfg r = .error e) : step s = .refused (.badRecord e) := by
  simp [step, fetch, hinput, hconfig, hdecode]

/-- The operation map has 0x00 to 0x05 and 0x10 to 0x1F, and no other op code (R101). -/
theorem operandsOf_unmapped {op : Byte} (hop : 5 < op.toNat ∧ op.toNat < 16 ∨ 31 < op.toNat) (operands : List Byte) :
    operandsOf op operands = .error .unknownOpcode := by
  unfold operandsOf
  split
  case h_23 => rfl
  all_goals exact absurd hop (by decide)

/-- Settles O7: the record of an unmapped op code does not decode. -/
theorem unmappedOpCodesRefused : Obligations.UnmappedOpCodesRefused := by
  intro s op bytes rest hinput hconfig hop
  exact step_badRecord hinput hconfig (decode_operation_error s.cfg (operandsOf_unmapped hop bytes))

/-! ### Operands that do not fit -/

theorem takeField_of_two_pow_le {w : Nat} {b : Byte} (h : 2 ^ w ≤ b.toNat) (rest : List Byte) :
    takeField w (b :: rest) = .error .operandTooWide := by
  simp [takeField, fit, Nat.not_lt.2 h]

theorem takeField_of_lt_two_pow {w : Nat} {b : Byte} (h : b.toNat < 2 ^ w) (rest : List Byte) :
    takeField w (b :: rest) = .ok (b.setWidth w, rest) := by
  simp [takeField, fit, h]

/-- Reading a field and then the others refuses by width: at the first byte where it does not fit, and otherwise where the
reader of the others finds the byte that does not. -/
theorem takeField_bind_oversized {α : Type} {w : Nat} {widths : List Nat} {bytes : List Byte}
    {f : BitVec w × List Byte → Except DecodeError α} (hlen : bytes.length = (w :: widths).length)
    (hwide : Oversized (w :: widths) bytes)
    (hf : ∀ v rest, rest.length = widths.length → Oversized widths rest → f (v, rest) = .error .operandTooWide) :
    (takeField w bytes >>= f) = .error .operandTooWide := by
  rcases bytes with _ | ⟨b, rest⟩
  · cases hlen
  · by_cases hle : 2 ^ w ≤ b.toNat
    · rw [takeField_of_two_pow_le hle]
      rfl
    · rw [takeField_of_lt_two_pow (Nat.lt_of_not_le hle)]
      exact hf _ rest (Nat.succ.inj hlen) (hwide.resolve_left hle)

theorem takeOne_oversized {w : Nat} {mk : BitVec w → Instr} {bytes : List Byte} (hlen : bytes.length = [w].length)
    (hwide : Oversized [w] bytes) : takeOne mk bytes = .error .operandTooWide :=
  takeField_bind_oversized hlen hwide fun _ _ _ => False.elim

theorem takeTwo_oversized {v w : Nat} {mk : BitVec v → BitVec w → Instr} {bytes : List Byte}
    (hlen : bytes.length = [v, w].length) (hwide : Oversized [v, w] bytes) : takeTwo mk bytes = .error .operandTooWide :=
  takeField_bind_oversized hlen hwide fun _ _ hlen hwide => takeField_bind_oversized hlen hwide fun _ _ _ => False.elim

theorem takeZone_oversized {mk : Byte → BitVec 3 → BitVec 2 → Bit → Byte → Instr} {bytes : List Byte}
    (hlen : bytes.length = [8, 3, 2, 1, 8].length) (hwide : Oversized [8, 3, 2, 1, 8] bytes) :
    takeZone mk bytes = .error .operandTooWide := by
  iterate 5 refine takeField_bind_oversized ‹_› ‹_› fun _ _ _ _ => ?_
  contradiction

theorem takeRequest_oversized {bytes : List Byte} (hlen : bytes.length = [8, 8, 1, 1, 3, 1, 2, 8].length)
    (hwide : Oversized [8, 8, 1, 1, 3, 1, 2, 8] bytes) : takeRequest bytes = .error .operandTooWide := by
  iterate 8 refine takeField_bind_oversized ‹_› ‹_› fun _ _ _ _ => ?_
  contradiction

theorem takeMsf_oversized {bytes : List Byte} (hlen : bytes.length = [3, 1, 2].length)
    (hwide : Oversized [3, 1, 2] bytes) : takeMsf bytes = .error .operandTooWide := by
  iterate 3 refine takeField_bind_oversized ‹_› ‹_› fun _ _ _ _ => ?_
  contradiction

theorem takeCorrelate_oversized {bytes : List Byte} (hlen : bytes.length = [8, 8, 8, 8].length)
    (hwide : Oversized [8, 8, 8, 8] bytes) : takeCorrelate bytes = .error .operandTooWide := by
  iterate 4 refine takeField_bind_oversized ‹_› ‹_› fun _ _ _ _ => ?_
  contradiction

theorem takeSequence_oversized {mk : List Byte → Instr} {n : Byte} (hn : 32 ≤ n.toNat) (bytes : List Byte) :
    takeSequence mk (n :: bytes) = .error .operandTooWide := by
  have hfield : takeField 5 (n :: bytes) = .error .operandTooWide := takeField_of_two_pow_le hn bytes
  simp [takeSequence, takeBytes, hfield, bind, Except.bind]

/-- Each op code whose operands have at most 8 bits reads them by the widths that R101 lists. -/
theorem operandsOf_oversized {op : Byte} {widths : List Nat} {bytes : List Byte} (hop : (op, widths) ∈ fixedOperands)
    (hlen : bytes.length = widths.length) (hwide : Oversized widths bytes) :
    operandsOf op bytes = .error .operandTooWide := by
  simp only [fixedOperands, List.mem_cons, List.not_mem_nil, or_false, Prod.mk.injEq] at hop
  rcases hop with ⟨rfl, rfl⟩ | ⟨rfl, rfl⟩ | ⟨rfl, rfl⟩ | ⟨rfl, rfl⟩ | ⟨rfl, rfl⟩ | ⟨rfl, rfl⟩ | ⟨rfl, rfl⟩ | ⟨rfl, rfl⟩ |
    ⟨rfl, rfl⟩ | ⟨rfl, rfl⟩ | ⟨rfl, rfl⟩ | ⟨rfl, rfl⟩ | ⟨rfl, rfl⟩ | ⟨rfl, rfl⟩ | ⟨rfl, rfl⟩ | ⟨rfl, rfl⟩ | ⟨rfl, rfl⟩
  · exact takeOne_oversized hlen hwide
  · exact takeZone_oversized hlen hwide
  · exact takeZone_oversized hlen hwide
  · exact takeOne_oversized hlen hwide
  · exact takeRequest_oversized hlen hwide
  · exact takeTwo_oversized hlen hwide
  · exact takeTwo_oversized hlen hwide
  · exact takeOne_oversized hlen hwide
  · exact takeOne_oversized hlen hwide
  · exact takeOne_oversized hlen hwide
  · exact takeOne_oversized hlen hwide
  · exact takeTwo_oversized hlen hwide
  · exact takeMsf_oversized hlen hwide
  · exact takeOne_oversized hlen hwide
  · exact takeOne_oversized hlen hwide
  · exact takeOne_oversized hlen hwide
  · exact takeCorrelate_oversized hlen hwide

/-! ### Operands outside the range of their rule -/

theorem modeOk_and_fanOk_iff (mode : BitVec 3) (fan : BitVec 2) :
    (modeOk mode && fanOk fan) = true ↔ mode.toNat ≤ 4 ∧ fan.toNat ≤ 2 := by
  simp [modeOk, fanOk]

/-- Settles O8: by width the reader of the op code refuses, by value the meaning of the operation. -/
theorem outOfRangeOperandsRefused : Obligations.OutOfRangeOperandsRefused := by
  refine ⟨fun c op widths bytes hop hlen hwide => ?_, fun c op n bytes hop hn => ?_, fun s bytes hlen => ?_,
    fun s vmode prev hvmode hprev => ?_, fun s mode swing fan hrange => ?_⟩
  · exact decode_operation_error c (operandsOf_oversized hop hlen hwide)
  · apply decode_operation_error
    rcases hop with rfl | rfl | rfl <;> exact takeSequence_oversized hn bytes
  · have hcount : ¬ checksumCountOk bytes = true := by
      rw [checksumCountOk_iff]
      omega
    simp only [exec, execVerifyChecksum, if_neg hcount]
  · have hmode : ¬ modeOk prev = true := by simpa [modeOk] using hprev
    simp only [exec, execEncMode, encMode_eq, if_neg (Nat.not_lt.2 hvmode), if_neg hmode]
  · have hfields : ¬ (modeOk mode && fanOk fan) = true := by
      rw [modeOk_and_fanOk_iff]
      omega
    simp only [exec, execPackMsf, if_neg hfields]

/-! ### Operations that return a value and do nothing else -/

/-- Settles O19: of the operations that do more than return a value, each has an op code below 0x10 or a record of another
format. -/
theorem combinationalOperationsArePure : Obligations.CombinationalOperationsArePure := by
  intro c i op operands s t henc hop h
  rcases exec_cases h with ⟨rfl, -⟩ | ⟨now, rfl, -⟩ | ⟨b, rfl, -⟩ | ⟨k, vmode, fan, swing, target, rfl | rfl, -⟩ |
    ⟨k, vmode, fan, swing, target, rfl, -⟩ | ⟨k, e, rfl, -⟩ | ⟨now, bytes, u, rfl, -⟩ | ⟨bytes, rfl, -⟩ |
    ⟨-, -, -, -, -, hresult⟩
  case inr.inr.inr.inr.inr.inr.inr.inr => exact hresult
  all_goals cases henc
  all_goals exact absurd hop (by decide)

/-- A temperature byte has the bits its policy transmits (30_encoding.md R84). -/
theorem tempByteOk_iff (c : Config) (temp : Byte) : tempByteOk c temp = true ↔ (c.tempPolicy = .clamp → temp.toNat ≤ 15) := by
  unfold tempByteOk
  split <;> simp [*]

theorem packStatus_eq (c : Config) (write power : Bit) :
    packStatus c write power = BitVec.ofNat 8 power.toNat ||| (if write = 1 then c.writeFlagMask else 0) := by
  rw [packStatus, zext8, BitVec.ofNat_toNat]

theorem requestFrame_eq (c : Config) (zone reqId : Byte) (write power : Bit) (mode : BitVec 3) (swing : Bit) (fan : BitVec 2)
    (temp : Byte) :
    requestFrame c zone reqId write power mode swing fan temp =
      let body := [c.hdr0, c.hdr1, reqId, zone,
        BitVec.ofNat 8 power.toNat ||| (if write = 1 then c.writeFlagMask else 0),
        BitVec.ofNat 8 (mode.toNat + 8 * swing.toNat + 16 * fan.toNat), temp]
      body ++ [sumXor body] := by
  rw [requestFrame, packStatus_eq, packMsf_eq]
  simp only [checksum_eq, List.dropLast_concat, sumXor]

/-- Settles O41: the frame's bytes in the numbers of the wire rules, under the operand ranges. -/
theorem frameReqBytes : Obligations.FrameReqBytes := by
  intro s reqId zone write power fan swing mode temp body
  have hrange : (modeOk mode && fanOk fan && tempByteOk s.cfg temp) = true ↔
      mode.toNat ≤ 4 ∧ fan.toNat ≤ 2 ∧ (s.cfg.tempPolicy = .clamp → temp.toNat ≤ 15) := by
    rw [Bool.and_eq_true, modeOk_and_fanOk_iff, tempByteOk_iff, and_assoc]
  simp only [exec, execFrameReq, hrange, requestFrame_eq, body]

end Sys2Proof.Proofs
end

section
/-! PROOFS. DRIVE and the operations it expands to (30_encoding.md R105): received bytes do not read what is presented after
them, so that stepping through the records performs the bytes and the tick. -/

namespace Sys2Proof.Proofs

open Sys2Proof.Machine Sys2Proof.Safety Sys2Proof.Laws

/-! ### Received bytes do not read the input -/

/-- The state with other operations presented next. -/
def withInput (input : List Record) (s : State) : State := { s with input := input }

@[simp] theorem withInput_cfg (input : List Record) (s : State) : (withInput input s).cfg = s.cfg := rfl
@[simp] theorem withInput_st (input : List Record) (s : State) : (withInput input s).st = s.st := rfl
@[simp] theorem withInput_rxbuf (input : List Record) (s : State) : (withInput input s).rxbuf = s.rxbuf := rfl
@[simp] theorem withInput_slots (input : List Record) (s : State) : (withInput input s).slots = s.slots := rfl

theorem raiseIf_withInput (e : Option ErrorKind) (input : List Record) (s : State) :
    raiseIf e (withInput input s) = withInput input (raiseIf e s) := by
  cases e with
  | none => rfl
  | some e => cases e <;> rfl

theorem decodeIntoSlot_withInput (k : Nat) (sl : Slot) (f : ResponseFields) (b7 : Byte) (input : List Record) (s : State) :
    decodeIntoSlot k sl f b7 (withInput input s) = withInput input (decodeIntoSlot k sl f b7 s) := by
  simp only [decodeIntoSlot, raiseIf_withInput, withInput_cfg]
  split <;> rfl

theorem dispatchFrame_withInput (f : ResponseFields) (b7 : Byte) (input : List Record) (s : State) :
    dispatchFrame f b7 (withInput input s) = withInput input (dispatchFrame f b7 s) := by
  simp only [dispatchFrame, withInput_slots]
  cases slotOf s.slots f.zoneId with
  | none => rfl
  | some k =>
    dsimp only
    cases s.slots[k]? with
    | none => rfl
    | some sl => exact congrArg endCycle (decodeIntoSlot_withInput k sl f b7 input s)

theorem frameComplete_withInput (input : List Record) (s : State) :
    frameComplete (withInput input s) = withInput input (frameComplete s) := by
  unfold frameComplete withInput
  dsimp only
  split
  · cases decodeResponse s.cfg (bufBytes s.rxbuf) with
    | error e => exact raiseIf_withInput (some e) input s
    | ok f =>
      dsimp only
      split
      · exact dispatchFrame_withInput f _ input s
      · rfl
  · rfl

theorem appendByte_withInput (b : Byte) (input : List Record) (s : State) :
    appendByte b (withInput input s) = andThen (appendByte b s) fun t => .next (withInput input t) := by
  unfold appendByte withInput
  dsimp only
  cases memWrite s.rxcnt.toNat b s.rxbuf with
  | error e => rfl
  | ok m =>
    dsimp only
    split
    · exact congrArg Host.Outcome.next (frameComplete_withInput input { s with rxbuf := m, rxcnt := s.rxcnt + 1 })
    · rfl

theorem execRxByte_withInput (b : Byte) (input : List Record) (s : State) :
    execRxByte b (withInput input s) = andThen (execRxByte b s) fun t => .next (withInput input t) := by
  simp only [execRxByte, withInput_st]
  cases s.st with
  | idle => rfl
  | awaitResponse =>
    dsimp only
    split
    · simp only [startFrame, withInput_rxbuf, memWrite_eq_ok _ _ (show 0 < 16 by decide)]
      rfl
    · rfl
  | receiving => exact appendByte_withInput b input s

/-! ### DRIVE -/

theorem andThen_assoc (o : Answer) (f g : State → Answer) :
    andThen (andThen o f) g = andThen o fun t => andThen (f t) g := by
  cases o <;> rfl

/-- A step takes the record of an operation off the input and performs the operation. -/
theorem step_eq_exec {s : State} {r : Record} {rest : List Record} {i : Instr} (hinput : s.input = r :: rest)
    (hconfig : configRefused s = false) (hdecode : decode s.cfg r = .ok i) : step s = exec i (withInput rest s) := by
  rw [step, fetch_eq_operation hinput hconfig hdecode]
  rfl

/-- Received bytes keep the zone ids, so that an accepted configuration stays one. -/
theorem execRxByte_configRefused {b : Byte} {s t : State} (h : execRxByte b s = .next t) :
    configRefused t = configRefused s := by
  rw [configRefused, configRefused, execRxByte_map_slots responded_zid h]

theorem execRxByte_cfg {b : Byte} {s t : State} (h : execRxByte b s = .next t) : t.cfg = s.cfg := by
  obtain ⟨_, _, _, _, _, rfl⟩ := execRxByte_frame h
  rfl

/-- The steps through the records of DRIVE's expansion perform its bytes and then its tick, stops included. -/
theorem runSteps_driveRecords (now : Time) (bytes : List Byte) (rest : List Record) {s : State}
    (hconfig : configRefused s = false) (hinput : s.input = driveRecords s.cfg now bytes ++ rest) :
    runSteps (bytes.length + 1) s = andThen (rxBytes bytes (withInput rest s)) (execTick now) := by
  induction bytes generalizing s with
  | nil =>
    have hstep := step_eq_exec hinput hconfig (decode_operation_of_encode (i := .tick now) rfl rfl)
    rw [List.length_nil, runSteps, hstep]
    rfl
  | cons b bytes ih =>
    have hstep : step s = execRxByte b (withInput (driveRecords s.cfg now bytes ++ rest) s) :=
      step_eq_exec hinput hconfig (decode_operation_of_encode (i := .rxByte b) rfl rfl)
    rw [List.length_cons, runSteps, hstep, rxBytes, execRxByte_withInput, execRxByte_withInput]
    cases hb : execRxByte b s with
    | fault f => rfl
    | refused r => rfl
    | next u =>
      refine ih (s := withInput _ u) ((execRxByte_configRefused hb).trans hconfig) ?_
      rw [withInput_cfg, execRxByte_cfg hb]
      rfl

/-- Settles O38: with no byte beyond RX_MAX, DRIVE is the bytes and the tick that the steps perform. -/
theorem driveIsItsExpansion : Obligations.DriveIsItsExpansion := by
  intro s now bytes rest hconfig hinput hmax
  rw [runSteps_driveRecords now bytes rest hconfig hinput, andThen_assoc, exec, execDrive]
  simp only [List.take_of_length_le hmax, List.drop_of_length_le hmax]
  rfl

/-- Settles O39: from a legal state the bytes complete, and a tick always does. -/
theorem driveCompletes : Obligations.DriveCompletes := by
  intro s now bytes hinv
  obtain ⟨u, hu⟩ := rxBytes_completes (bytes.take s.cfg.rxMax) hinv
  refine ⟨u, tick now u, (execAll_rxByte _ s).trans hu, rfl, ?_⟩
  rw [exec, execDrive, hu, andThen_next]

end Sys2Proof.Proofs
end

section
/-! PROOFS. The codec (40_codec.md): what each combinational operation returns, in the numbers of its rule, and the laws that
R138 and R139 derive from the rules. -/

namespace Sys2Proof.Proofs

open Sys2Proof.Machine Sys2Proof.Safety Sys2Proof.Laws

/-! ### The checksum (40_codec.md R121, R122) -/

/-- CHECKSUM sums what stands before the checksum slot. -/
theorem checksum_eq_sumXor (bytes : List Byte) : checksum bytes = sumXor bytes.dropLast := checksum_eq bytes

/-- The sum modulo 256 is the sum of bytes as bytes. -/
theorem sumXor_eq_sum (bytes : List Byte) : sumXor bytes = bytes.sum ^^^ 0x55#8 := by
  have hsum : BitVec.ofNat 8 (bytes.map BitVec.toNat).sum = bytes.sum := by
    induction bytes with
    | nil => rfl
    | cons b bytes ih =>
      rw [List.map_cons, List.sum_cons, List.sum_cons, BitVec.ofNat_add, BitVec.ofNat_toNat, BitVec.setWidth_eq, ih]
  rw [sumXor, hsum]

theorem sumXor_eq_iff (xs ys : List Byte) : sumXor xs = sumXor ys ↔ xs.sum = ys.sum := by
  rw [sumXor_eq_sum, sumXor_eq_sum, BitVec.xor_left_inj]

/-- A sum does not see the order of its bytes. -/
theorem sumXor_perm {xs ys : List Byte} (h : xs.Perm ys) : sumXor xs = sumXor ys := (sumXor_eq_iff xs ys).2 h.sum_eq

/-- A sum sees a change of any one of its bytes. -/
theorem sumXor_set_ne {bytes : List Byte} {i : Nat} {old new : Byte} (hi : bytes[i]? = some old) (hne : new ≠ old) :
    sumXor (bytes.set i new) ≠ sumXor bytes := by
  obtain ⟨hlt, rfl⟩ := List.getElem?_eq_some_iff.1 hi
  rw [ne_eq, sumXor_eq_iff, List.sum_set', dif_pos hlt, add_eq_left, neg_add_eq_zero]
  exact hne.symm

/-- VERIFY_CHECKSUM compares the checksum slot with the sum of the bytes before it. -/
theorem verifyChecksum_eq (bytes : List Byte) :
    verifyChecksum bytes = decide (bytes.getLast? = some (sumXor bytes.dropLast)) := by
  rw [verifyChecksum, checksum_eq_sumXor, beq_eq_decide]

theorem verifyChecksum_concat (body : List Byte) (cs : Byte) :
    verifyChecksum (body ++ [cs]) = decide (cs = sumXor body) := by
  simp [verifyChecksum_eq]

theorem exec_checksum {bytes : List Byte} (h : 1 ≤ bytes.length ∧ bytes.length ≤ 16) (s : State) :
    exec (.checksum bytes) s = .next { s with result := some (.checksum (checksum bytes)) } :=
  if_pos ((checksumCountOk_iff bytes).2 h)

theorem exec_verifyChecksum {bytes : List Byte} (h : 1 ≤ bytes.length ∧ bytes.length ≤ 16) (s : State) :
    exec (.verifyChecksum bytes) s = .next { s with result := some (.verified (verifyChecksum bytes)) } :=
  if_pos ((checksumCountOk_iff bytes).2 h)

/-- A count outside 1..16 is refused by both operations (30_encoding.md R102). -/
theorem exec_checksum_refused {bytes : List Byte} (h : ¬ (1 ≤ bytes.length ∧ bytes.length ≤ 16)) (s : State) :
    exec (.checksum bytes) s = .refused .byteCount ∧ exec (.verifyChecksum bytes) s = .refused .byteCount :=
  ⟨if_neg fun hok => h ((checksumCountOk_iff bytes).1 hok), if_neg fun hok => h ((checksumCountOk_iff bytes).1 hok)⟩

/-- VERIFY_CHECKSUM answers the verdict it finds and no other. -/
theorem exec_verifyChecksum_eq_iff {bytes : List Byte} (h : 1 ≤ bytes.length ∧ bytes.length ≤ 16) (s : State) (v : Bool) :
    exec (.verifyChecksum bytes) s = .next { s with result := some (.verified v) } ↔ verifyChecksum bytes = v := by
  simp [exec_verifyChecksum h]

/-- Settles O9: `checksum_eq_sumXor` where the count is in range. -/
theorem checksumResult : Obligations.ChecksumResult := by
  intro s bytes
  split
  · next hcount => rw [exec_checksum hcount, checksum_eq_sumXor]
  · next hcount => exact (exec_checksum_refused hcount s).1

/-- Settles O10: the checksum slot holds the sum of the bytes before it, or does not. -/
theorem verifyChecksumResult : Obligations.VerifyChecksumResult := by
  intro s bytes hmax
  split
  · next hmin => rw [exec_verifyChecksum ⟨hmin, hmax⟩, verifyChecksum_eq]
  · next hmin => exact (exec_checksum_refused (fun hcount => hmin hcount.1) s).2

/-- Settles O21: a change in the checksum slot leaves the sum, and a change of a summed byte moves it (`sumXor_set_ne`). -/
theorem singleByteChangeDetected : Obligations.SingleByteChangeDetected := by
  intro s bytes i old new hmax hi hne hgood
  obtain rfl | ⟨body, cs, rfl⟩ := List.eq_nil_or_concat' bytes
  · simp at hi
  have hcount : 1 ≤ (body ++ [cs]).length ∧ (body ++ [cs]).length ≤ 16 := ⟨by simp, hmax⟩
  rw [exec_verifyChecksum_eq_iff hcount, verifyChecksum_concat, decide_eq_true_iff] at hgood
  rw [exec_verifyChecksum_eq_iff (by rwa [List.length_set]), List.set_append]
  split
  · next hlt =>
    rw [List.getElem?_append_left hlt] at hi
    rw [verifyChecksum_concat, decide_eq_false_iff_not, hgood]
    exact (sumXor_set_ne hi hne).symm
  · next hge =>
    obtain ⟨hlt, hold⟩ := List.getElem?_eq_some_iff.1 hi
    obtain rfl : i = body.length := by simp at hlt; omega
    obtain rfl : cs = old := by simpa using hold
    rw [Nat.sub_self, List.set_cons_zero, verifyChecksum_concat, decide_eq_false_iff_not, ← hgood]
    exact hne

/-- Settles O22: the verdict and the count are those of a frame with the same sum and the same length. -/
theorem reorderingUndetected : Obligations.ReorderingUndetected := by
  intro s body body' cs hperm
  have hverdict : verifyChecksum (body ++ [cs]) = verifyChecksum (body' ++ [cs]) := by
    rw [verifyChecksum_concat, verifyChecksum_concat, sumXor_perm hperm]
  have hlength : (body ++ [cs]).length = (body' ++ [cs]).length := by
    rw [List.length_append, List.length_append, hperm.length_eq]
  have hcount : checksumCountOk (body ++ [cs]) = checksumCountOk (body' ++ [cs]) := by
    rw [checksumCountOk, hlength, checksumCountOk]
  simp only [exec, execVerifyChecksum, hverdict, hcount]

/-! ### Temperatures (40_codec.md R135 to R137) -/

/-- Under CLAMP a target above 15 loses 15, and no more than 15 is left of it. -/
theorem encTarget_clamp {c : Config} (h : c.tempPolicy = .clamp) (target : Byte) :
    encTarget c target = BitVec.ofNat 8 (min (target.toNat - 15) 15) := by
  have hclamp : min (max ((target.toNat : Int) - 15) 0) 15 = ((min (target.toNat - 15) 15 : Nat) : Int) := by omega
  simp only [encTarget, h, tempOffset]
  rw [Nat.cast_ofNat, hclamp, BitVec.ofInt_natCast]

/-- Under TRUNC_BYTE the difference is narrowed to a byte as it is. -/
theorem encTarget_truncByte {c : Config} (h : c.tempPolicy = .truncByte) (target : Byte) :
    encTarget c target = target - 15 := by
  simp only [encTarget, h, tempOffset]
  bv_omega

/-- Targets 15 to 30 encode alike under both policies. -/
theorem encTarget_of_mem_range (c : Config) {target : Byte} (hmin : 15 ≤ target.toNat) (hmax : target.toNat ≤ 30) :
    encTarget c target = target - 15 := by
  cases h : c.tempPolicy with
  | clamp =>
    rw [encTarget_clamp h]
    bv_omega
  | truncByte => exact encTarget_truncByte h target

/-- The low nibble of 0 to 15 is the number itself. -/
theorem decTarget_sub_of_mem_range {target : Byte} (hmin : 15 ≤ target.toNat) (hmax : target.toNat ≤ 30) :
    decTarget (target - 15) = target := by
  have hsub : (target - 15).toNat = target.toNat - 15 := by bv_omega
  rw [decTarget_eq, hsub, Nat.mod_eq_of_lt (by omega), Nat.sub_add_cancel hmin, BitVec.ofNat_toNat, BitVec.setWidth_eq]

/-- Settles O16: the byte that ENC_TARGET returns, read as a number under each policy. -/
theorem targetResults : Obligations.TargetResults := by
  intro s
  refine ⟨fun target => ⟨encTarget s.cfg target, rfl, fun hclamp => ?_, fun htrunc => ?_⟩, fun tempByte => ?_⟩
  · rw [encTarget_clamp hclamp, BitVec.toNat_ofNat]
    omega
  · rw [encTarget_truncByte htrunc]
    bv_omega
  · rw [← decTarget_eq]
    rfl

/-- DEC_CURTEMP as a signed number, with its numerator `n` over 64: on each side of zero half of 64 is added to the magnitude
before the division, and the quotient fits s8. -/
theorem decCurtemp_toInt {b : Byte} {n : Int} (hn : n = 4480 - 25 * (b.toNat : Int)) :
    (decCurtemp b).toInt = if 0 ≤ n then (n + 32) / 64 else -((-n + 32) / 64) := by
  have hb := b.isLt
  simp only [decCurtemp, ← hn]
  split
  · exact BitVec.toInt_ofInt_eq_self (by decide) (by omega) (by omega)
  · exact BitVec.toInt_ofInt_eq_self (by decide) (by omega) (by omega)

/-- Settles O17: rounding the magnitude goes away from zero on both sides. -/
theorem decCurtempRounds : Obligations.DecCurtempRounds := by
  intro s b
  refine ⟨decCurtemp b, rfl, ?_, ?_, decCurtemp_bounds b⟩
  · rw [decCurtemp_toInt rfl]
    split <;> omega
  · rw [decCurtemp_toInt rfl]
    split <;> omega

/-! ### Mode, fan and swing (40_codec.md R127 to R134) -/

theorem modeOk_iff (mode : BitVec 3) : modeOk mode = true ↔ mode.toNat ≤ 4 := decide_eq_true_iff

/-- Power 0 is Off, whatever the mode bits (R138 (e)). -/
theorem decMode_off (mode : BitVec 3) : decMode 0 mode = (5, none) := rfl

theorem decMode_on {power : Bit} {mode : BitVec 3} (hpower : power ≠ 0) (hmode : mode.toNat ≤ 4) :
    decMode power mode = (mode, none) := by
  rw [decMode, if_neg hpower, if_pos ((modeOk_iff mode).2 hmode)]

theorem decMode_on_invalid {power : Bit} {mode : BitVec 3} (hpower : power ≠ 0) (hmode : ¬ mode.toNat ≤ 4) :
    decMode power mode = (5, some (.invalidModeOrFanOrSwingValue .mode)) := by
  rw [decMode, if_neg hpower, if_neg fun hok => hmode ((modeOk_iff mode).1 hok)]
  rfl

theorem exec_decMode (power : Bit) (mode : BitVec 3) (s : State) :
    exec (.decMode power mode) s = .next { s with result := some (.decMode (decMode power mode).1 (decMode power mode).2) } :=
  rfl

theorem decFan_of_le {bits : BitVec 3} (h : bits.toNat ≤ 2) : decFan bits = (some (BitVec.ofNat 2 bits.toNat), none) := by
  rw [decFan, if_pos h, ← BitVec.ofNat_toNat]

theorem decFan_invalid {bits : BitVec 3} (h : ¬ bits.toNat ≤ 2) :
    decFan bits = (none, some (.invalidModeOrFanOrSwingValue .fan)) := if_neg h

theorem exec_decFan (bits : BitVec 3) (s : State) :
    exec (.decFan bits) s = .next { s with result := some (.decFan (decFan bits).1 (decFan bits).2) } := rfl

/-- The fan decoder reads three bits, of which PACK_MSF leaves the highest 0. -/
theorem packMsf_fanBits (mode : BitVec 3) (swing : Bit) (fan : BitVec 2) :
    (packMsf mode swing fan).extractLsb' 4 3 = fan.setWidth 3 := by
  revert mode swing fan
  decide

theorem decFan_setWidth {fan : BitVec 2} (h : fan.toNat ≤ 2) : decFan (fan.setWidth 3) = (some fan, none) := by
  have hfan : (fan.setWidth 3).toNat = fan.toNat := BitVec.toNat_setWidth_of_le (by decide)
  rw [decFan_of_le (by rwa [hfan]), hfan, BitVec.ofNat_toNat, BitVec.setWidth_eq]

theorem exec_packMsf {mode : BitVec 3} {fan : BitVec 2} (hmode : mode.toNat ≤ 4) (hfan : fan.toNat ≤ 2) (swing : Bit)
    (s : State) : exec (.packMsf mode swing fan) s = .next { s with result := some (.msf (packMsf mode swing fan)) } :=
  if_pos ((modeOk_and_fanOk_iff mode fan).2 ⟨hmode, hfan⟩)

/-- Settles O13: ENC_MODE by its host code, DEC_MODE by the power bit and then by the mode. -/
theorem modeResults : Obligations.ModeResults := by
  refine fun s => ⟨fun vmode prev hprev => ?_, fun power mode => ?_⟩
  · simp only [exec, execEncMode, encMode_eq, if_pos ((modeOk_iff prev).2 hprev)]
    split_ifs <;> rfl
  · rw [exec_decMode]
    split_ifs with hpower hmode
    · rw [hpower, decMode_off]
    · rw [decMode_on hpower hmode]
    · rw [decMode_on_invalid hpower hmode]

/-- Settles O14: DEC_FAN by the range of its bits; the other three are their codec functions as they stand. -/
theorem fanAndSwingResults : Obligations.FanAndSwingResults := by
  refine fun s => ⟨fun fan => rfl, fun bits => ?_, fun swing => rfl, fun bit => rfl⟩
  rw [exec_decFan]
  split_ifs with hbits
  · rw [decFan_of_le hbits]
  · rw [decFan_invalid hbits]

/-- Settles O15: both bytes in numbers. -/
theorem packedByteResults : Obligations.PackedByteResults := by
  refine fun s => ⟨fun write power => ?_, fun mode swing fan hmode hfan => ?_⟩
  · rw [← packStatus_eq]
    rfl
  · rw [exec_packMsf hmode hfan, packMsf_eq]

/-- Settles O23: each field of PACK_MSF is read back where it was put, and the targets keep their difference from 15. -/
theorem stateCodecRoundTrip : Obligations.StateCodecRoundTrip := by
  refine fun s => ⟨fun mode swing fan hmode hfan => ?_, fun target hmin hmax => ?_⟩
  · refine ⟨packMsf mode swing fan, exec_packMsf hmode hfan swing s, ?_, ?_, ?_⟩
    · rw [packMsf_mode, exec_decMode, decMode_on (by decide) hmode]
    · rw [packMsf_swing]
      rfl
    · rw [packMsf_fanBits, exec_decFan, decFan_setWidth hfan]
  · constructor
    · rw [exec, execEncTarget, encTarget_of_mem_range s.cfg hmin hmax]
      rfl
    · rw [exec, execDecTarget, decTarget_sub_of_mem_range hmin hmax]
      rfl

/-! ### The frames (40_codec.md R123, R124) -/

theorem exec_encodeRequest {mode : BitVec 3} {fan : BitVec 2} (hrange : mode.toNat ≤ 4 ∧ fan.toNat ≤ 2)
    (zone reqId : Byte) (write power swing : Bit) (target : Byte) (s : State) :
    exec (.encodeRequest zone reqId write power mode swing fan target) s =
      .next { s with result := some (.request (encodeRequest s.cfg zone reqId write power mode swing fan target)) } :=
  if_pos ((modeOk_and_fanOk_iff mode fan).2 hrange)

theorem exec_encodeRequest_refused {mode : BitVec 3} {fan : BitVec 2} (hrange : ¬ (mode.toNat ≤ 4 ∧ fan.toNat ≤ 2))
    (zone reqId : Byte) (write power swing : Bit) (target : Byte) (s : State) :
    exec (.encodeRequest zone reqId write power mode swing fan target) s = .refused .operandRange :=
  if_neg fun hok => hrange ((modeOk_and_fanOk_iff mode fan).1 hok)

/-- Settles O11: the request frame's bytes in numbers, with the temperature byte of the policy. -/
theorem encodeRequestResult : Obligations.EncodeRequestResult := by
  intro s zone reqId write power mode swing fan target
  dsimp only
  split
  · next hrange =>
    rw [exec_encodeRequest hrange, encodeRequest, requestFrame_eq]
    cases hpolicy : s.cfg.tempPolicy with
    | clamp => simp only [encTarget_clamp hpolicy]
    | truncByte => simp only [encTarget_truncByte hpolicy]
  · next hrange => exact exec_encodeRequest_refused hrange zone reqId write power swing target s

/-- The last byte of a request frame is its checksum (30_encoding.md R85). -/
theorem verifyChecksum_requestFrame (c : Config) (zone reqId : Byte) (write power : Bit) (mode : BitVec 3) (swing : Bit)
    (fan : BitVec 2) (temp : Byte) : verifyChecksum (requestFrame c zone reqId write power mode swing fan temp) = true :=
  (verifyChecksum_append _ _).2 rfl

/-- Settles O20: the one answer of ENCODE_REQUEST is a request frame, and its last byte is its checksum. -/
theorem encodedRequestsVerify : Obligations.EncodedRequestsVerify := by
  intro s t u zone reqId write power mode swing fan target f hexec hresult
  by_cases hrange : mode.toNat ≤ 4 ∧ fan.toNat ≤ 2
  · rw [exec_encodeRequest hrange] at hexec
    cases hexec
    cases hresult
    have hlength : (encodeRequest s.cfg zone reqId write power mode swing fan target).length = 8 := requestFrame_length ..
    exact ⟨hlength, (exec_verifyChecksum_eq_iff (by omega) u true).2 (verifyChecksum_requestFrame ..)⟩
  · rw [exec_encodeRequest_refused hrange] at hexec
    cases hexec

theorem decodeResponse_tooShort (c : Config) {bytes : List Byte} (h : bytes.length < 9) :
    decodeResponse c bytes = .error .frameTooShort := if_pos h

/-- Settles O12: DECODE_RESPONSE by the count; an offset that holds a byte has that byte for the request id. -/
theorem decodeResponseResult : Obligations.DecodeResponseResult := by
  refine fun s bytes => ⟨fun hshort => ?_, fun hmin hmax => ⟨responseId s.cfg bytes, fun b => responseId_of_getElem?, ?_⟩,
    fun hlong => ?_⟩
  · have hcount : responseCountOk bytes = true := (responseCountOk_iff bytes).2 (by omega)
    rw [exec, execDecodeResponse, if_pos hcount, decodeResponse_tooShort s.cfg hshort]
    rfl
  · rw [exec, execDecodeResponse, if_pos ((responseCountOk_iff bytes).2 hmax), decodeResponse_eq s.cfg hmin]
    rfl
  · exact if_neg fun hok => Nat.not_le.2 hlong ((responseCountOk_iff bytes).1 hok)

end Sys2Proof.Proofs
end

section
/-! PROOFS. TICK (41_controller.md R175 to R181, R197): which branch a tick takes, and the state after it. -/

namespace Sys2Proof.Proofs

open Sys2Proof.Machine Sys2Proof.Safety Sys2Proof.Laws

/-! ### The branch a tick takes -/

theorem tick_of_idle (now : Time) {s : State} (hidle : s.st = .idle) : tick now s = idleTick now (setRun s) := by
  simp [tick, hidle]

/-- A pending active slot comes before any poll (R176, R177). -/
theorem tick_eq_writeStep (now : Time) {s : State} (hidle : s.st = .idle) {k : Nat} {sl : Slot}
    (hp : firstPending s.slots = some k) (hk : s.slots[k]? = some sl) : tick now s = writeStep k sl now (setRun s) := by
  have htarget : writeTarget (setRun s) = some (k, sl) := (writeTarget_eq_some_iff _ _ _).2 ⟨hp, hk⟩
  rw [tick_of_idle now hidle, idleTick, htarget]

/-- A write that is pending has its least slot index. -/
theorem exists_firstPending {s : State} (h : WritePending s) : ∃ k sl, firstPending s.slots = some k ∧
    s.slots[k]? = some sl ∧ sl.pend = true ∧ slotActive sl = true := by
  obtain ⟨k, hp⟩ := Option.ne_none_iff_exists'.1 fun hnone => (firstPending_eq_none_iff s).1 hnone h
  obtain ⟨⟨sl, hk, hpend, ha⟩, -⟩ := (firstPending_eq_some_iff _ _).1 hp
  exact ⟨k, sl, hp, hk, hpend, ha⟩

/-- With nothing to write, a tick after the poll interval takes the round-robin step (R176, R179). -/
theorem tick_eq_pollStep {now : Time} {s : State} (hidle : s.st = .idle) (hw : ¬ WritePending s)
    (he : s.cfg.pollInterval.toNat ≤ (now - s.pollTs).toNat) {sl : Slot} (hsl : s.slots[nextRr s]? = some sl) :
    tick now s = pollStep sl now (setRun s) := by
  have hwrite : writeTarget (setRun s) = none := (writeTarget_eq_none_iff _).2 hw
  have hpoll : pollTarget now (setRun s) = some sl := (pollTarget_eq_some_iff _ _ _).2 ⟨(elapsed_iff _ _ _).2 he, hsl⟩
  rw [tick_of_idle now hidle, idleTick, hwrite, hpoll]

/-- With nothing to write and nothing to poll, a tick sets RUN (R180). -/
theorem tick_eq_setRun {now : Time} {s : State} (hidle : s.st = .idle) (hw : ¬ WritePending s)
    (he : s.slots = [] ∨ (now - s.pollTs).toNat < s.cfg.pollInterval.toNat) : tick now s = setRun s := by
  have hwrite : writeTarget (setRun s) = none := (writeTarget_eq_none_iff _).2 hw
  have hpoll : pollTarget now (setRun s) = none :=
    (pollTarget_eq_none_iff _ _).2 (he.imp_right fun hlt => decide_eq_false (Nat.not_le.2 hlt))
  rw [tick_of_idle now hidle, idleTick, hwrite, hpoll]

/-- Outside Idle a tick looks at the receive deadline alone (R181). -/
theorem tick_of_not_idle (now : Time) {s : State} (hst : s.st ≠ .idle) :
    tick now s =
      if s.cfg.rxTimeout.toNat ≤ (now - s.txTs).toNat then { abandoned s 4 with run := true } else setRun s := by
  have hcheck : tick now s = timeoutCheck now (setRun s) := by
    cases h : s.st with
    | idle => exact absurd h hst
    | awaitResponse => simp [tick, h]
    | receiving => simp [tick, h]
  rw [hcheck, timeoutCheck, raise_receiveTimeout]
  simp only [elapsed_iff]
  rfl

/-! ### TICK in Idle -/

/-- Settles O24: the slot of least index is the one WRITE_STEP finds. -/
theorem tickWritesLeastPendingSlot : Obligations.TickWritesLeastPendingSlot := by
  intro s now k sl hidle hk hpend hlo hhi hleast
  have hp : firstPending s.slots = some k := by
    refine (firstPending_eq_some_iff s.slots k).2 ⟨⟨sl, hk, hpend, (slotActive_iff sl).2 ⟨hlo, hhi⟩⟩, ?_⟩
    intro j sl' hj hsl'
    rw [slotActive_iff]
    exact hleast j sl' hj hsl'
  rw [exec, execTick, tick_eq_writeStep now hidle hp hk, writeStep_eq]
  rfl

/-- Settles O25: the slot after RR is polled; `nextRr_eq` says that RR's width holds its index. -/
theorem tickPollsNextSlot : Obligations.TickPollsNextSlot := by
  intro s now sl hN hidle hw he hsl
  have hrr : nextRr s = (s.rr + 1) % s.slots.length := nextRr_eq hN (List.ne_nil_of_mem (List.mem_of_getElem? hsl))
  have hnext : nextRr (setRun s) = (s.rr + 1) % s.slots.length := hrr
  rw [exec, execTick, tick_eq_pollStep hidle hw he (hrr ▸ hsl), pollStep_eq, hnext]
  simp only [slotActive_iff]
  split <;> rfl

/-- Settles O26: neither step applies. -/
theorem idleTickOtherwiseSetsRunOnly : Obligations.IdleTickOtherwiseSetsRunOnly := by
  intro s now hidle hw he
  rw [exec, execTick, tick_eq_setRun hidle hw he]
  rfl

/-! ### TICK outside Idle -/

/-- Settles O27: TIMEOUT_CHECK on either side of the deadline. -/
theorem tickChecksReceiveDeadline : Obligations.TickChecksReceiveDeadline := by
  intro s now hst
  rw [exec, execTick, tick_of_not_idle now hst]
  split <;> rfl

/-- Settles O28: the timeout leaves the slots alone, so that WRITE_STEP finds the least pending one at the next tick. -/
theorem timeoutFreesTheBus : Obligations.TimeoutFreesTheBus := by
  intro s now now' hst he
  have htick : tick now s = { abandoned s 4 with run := true } := by rw [tick_of_not_idle now hst, if_pos he]
  refine ⟨_, congrArg Host.Outcome.next htick, rfl, fun hw => ?_⟩
  obtain ⟨k, sl, hp, hk, hpend, ha⟩ := exists_firstPending hw
  obtain ⟨hlo, hhi⟩ := (slotActive_iff sl).1 ha
  have hwrite := tick_eq_writeStep now' (s := { abandoned s 4 with run := true }) rfl hp hk
  rw [writeStep_eq] at hwrite
  refine ⟨_, k, sl, congrArg Host.Outcome.next hwrite, hk, hpend, hlo, hhi, rfl, rfl, rfl, rfl, ?_⟩
  exact List.getElem?_set_self (List.getElem?_eq_some_iff.1 hk).1

end Sys2Proof.Proofs
end

section
/-! PROOFS. RX_BYTE (41_controller.md R182 to R194): a discarded byte, a stored byte, and the outcomes of the byte that completes
a frame. -/

namespace Sys2Proof.Proofs

open Sys2Proof.Machine Sys2Proof.Safety Sys2Proof.Laws

/-! ### CORRELATE -/

/-- Settles O18: CORRELATE returns its verdict, which `correlate_iff` gives in numbers. -/
theorem correlateResult : Obligations.CorrelateResult := by
  intro s respZone respId lastZone lastId
  have hverdict : correlate respZone respId lastZone lastId =
      decide (respZone = lastZone ∧ (respId = lastId ∨ (respId.toNat + 1) % 256 = lastId.toNat)) := by
    rw [Bool.eq_iff_iff, decide_eq_true_iff, correlate_iff]
  rw [exec, execCorrelate, hverdict]
  rfl

/-! ### Discarded and stored bytes -/

/-- Settles O29: the byte is discarded in Idle, and is noise in AwaitResponse. -/
theorem noiseBytesDiscarded : Obligations.NoiseBytesDiscarded := by
  rintro s b (hidle | ⟨hawait, hb⟩)
  · simp only [exec, execRxByte, hidle]
  · have hnoise : b ≠ startByte := hb
    simp only [exec, execRxByte, hawait, if_neg hnoise]

/-- Settles O30: START stores at offset 0. -/
theorem startByteStartsFrame : Obligations.StartByteStartsFrame := by
  intro s hst hm
  obtain ⟨-, hget, hkept, -⟩ := memWrite_spec hm (memWrite_eq_ok 0x10 s.rxbuf (show 0 < 16 by decide))
  exact ⟨_, execRxByte_start hst, hget, hkept⟩

/-- Settles O31: APPEND stores at RXCNT. -/
theorem receivedByteAppended : Obligations.ReceivedByteAppended := by
  intro s b hst hm hcnt
  have hnext : s.rxcnt + 1 = BitVec.ofNat 5 (s.rxcnt.toNat + 1) := by
    rw [BitVec.ofNat_add, BitVec.ofNat_toNat, BitVec.setWidth_eq]
    rfl
  have happend := execRxByte_append b hst hcnt
  rw [hnext] at happend
  obtain ⟨-, hget, hkept, -⟩ := memWrite_spec hm (memWrite_eq_ok b s.rxbuf (Nat.lt_succ_of_lt hcnt))
  exact ⟨_, happend, hget, hkept⟩

/-! ### The byte that completes a frame -/

@[simp] theorem completedFrame_length (s : State) (b : Byte) : (completedFrame s b).length = 16 := by
  simp [completedFrame]

/-- Where RESP_REQID_OFFSET lies inside the frame, CORRELATE accepts only one that answers the outstanding request (R188). -/
theorem correlated_of_correlate {s : State} {frame : List Byte} (hoffset : s.cfg.respReqidOffset < frame.length)
    (h : correlate (frame.getD 4 0) (responseId s.cfg frame) s.lastZone s.lastId = true) : Correlated s frame := by
  obtain ⟨hzone, hid⟩ := (correlate_iff _ _ _ _).1 h
  have hread := List.getElem?_eq_getElem hoffset
  rw [responseId_of_getElem? hread] at hid
  exact ⟨hzone, _, hread, hid⟩

/-- The outcomes of the byte that completes a frame, in the order in which FRAME_COMPLETE judges it (R187). -/
theorem execRxByte_complete_cases (b : Byte) {s : State} (hst : s.st = .receiving) (hcnt : s.rxcnt = 15)
    (hm : Memory.wf s.rxbuf = true) :
    let frame := completedFrame s b
    let correlated := correlate (frame.getD 4 0) (responseId s.cfg frame) s.lastZone s.lastId
    (¬ ChecksumGood frame ∧ execRxByte b s = .next (abandoned s 1)) ∨
    (ChecksumGood frame ∧ correlated = false ∧ execRxByte b s = .next (abandoned s 3)) ∨
    (ChecksumGood frame ∧ correlated = true ∧ ¬ ActiveZone s s.lastZone ∧ execRxByte b s = .next (abandoned s 5)) ∨
    (ChecksumGood frame ∧ correlated = true ∧ ∃ k sl, slotOf s.slots s.lastZone = some k ∧ s.slots[k]? = some sl ∧
      execRxByte b s = .next (dispatched s k frame sl)) := by
  have hframe : bufBytes (bufPut s.rxbuf 15 b) = completedFrame s b := bufBytes_bufPut_last hm b
  have hcases := frameComplete_cases { s with rxbuf := bufPut s.rxbuf 15 b, rxcnt := 16 }
  rw [execRxByte_complete b hst (by rw [hcnt]; rfl)]
  simp only [hframe] at hcases
  simp only [Host.Outcome.next.injEq]
  exact hcases

/-- Settles O33: the first check of FRAME_COMPLETE fails. -/
theorem checksumMismatchEndsCycle : Obligations.ChecksumMismatchEndsCycle := by
  intro s b hst hcnt hm hbad
  rcases execRxByte_complete_cases b hst hcnt hm with ⟨-, h⟩ | ⟨hgood, -⟩ | ⟨hgood, -⟩ | ⟨hgood, -⟩
  · exact h
  all_goals exact absurd hgood hbad

/-- Settles O34: the second check fails; with RESP_REQID_OFFSET inside the frame it is the rule's own. -/
theorem uncorrelatedFrameEndsCycle : Obligations.UncorrelatedFrameEndsCycle := by
  intro s b hst hcnt hm hoffset hgood hno
  have hreject (hyes : correlate _ _ _ _ = true) : False :=
    hno (correlated_of_correlate (by rwa [completedFrame_length]) hyes)
  rcases execRxByte_complete_cases b hst hcnt hm with ⟨hbad, -⟩ | ⟨-, -, h⟩ | ⟨-, hyes, -⟩ | ⟨-, hyes, -⟩
  · exact absurd hgood hbad
  · exact h
  all_goals exact (hreject hyes).elim

/-- Settles O35: the third check fails. -/
theorem unknownZoneEndsCycle : Obligations.UnknownZoneEndsCycle := by
  intro s b hst hcnt hm hgood hcorr hzone
  rcases execRxByte_complete_cases b hst hcnt hm with ⟨hbad, -⟩ | ⟨-, hno, -⟩ | ⟨-, -, -, h⟩ | ⟨-, -, k, sl, hk, -⟩
  · exact absurd hgood hbad
  · exact absurd (correlate_of_correlated hcorr) (Bool.eq_false_iff.1 hno)
  · exact h
  · simp [(slotOf_eq_none_iff s s.lastZone).2 hzone] at hk

/-- Settles O36: every check succeeds, and the active slot with the zone id is unique. -/
theorem correlatedFrameDispatched : Obligations.CorrelatedFrameDispatched := by
  intro s b k sl hst hcnt hm hconfig hgood hcorr hk hz
  exact execRxByte_eq_dispatched hst (by rw [hcnt]; rfl) hm hconfig hgood hcorr hk hz

/-! ### A pending slot -/

/-- A response leaves a pending slot its commanded registers (R194). -/
theorem responded_of_pend {c : Config} (hc : c.decodeOverwritesPending = false) (frame : List Byte) {sl : Slot}
    (hp : sl.pend = true) :
    responded c frame sl = { sl with cur := decCurtemp (frame.getD 8 0), curValid := true } := by
  simp [responded, hp, hc]

/-- Settles O37: a byte that writes a slot completes a frame, and the slot it writes takes the response. -/
theorem pendingSlotKeepsCommandedState : Obligations.PendingSlotKeepsCommandedState := by
  intro s t b k sl hc hk hp h
  rcases execRxByte_slots h with hs | ⟨-, -, j, frame, a, hj, hs⟩
  · exact ⟨sl.cur, sl.curValid, by rw [hs, hk]⟩
  · rw [hs]
    by_cases hjk : j = k
    · subst hjk
      obtain rfl := Option.some.inj (hk.symm.trans hj)
      rw [responded_of_pend hc frame hp]
      exact ⟨_, _, List.getElem?_set_self (List.getElem?_eq_some_iff.1 hk).1⟩
    · exact ⟨sl.cur, sl.curValid, by rw [List.getElem?_set_ne hjk, hk]⟩

end Sys2Proof.Proofs
end

section
/-! PROOFS. The controller over any operation: the transitions of ST (41_controller.md R189) and the order of the round-robin
steps (R196). -/

namespace Sys2Proof.Proofs

open Sys2Proof.Machine Sys2Proof.Safety Sys2Proof.Laws

/-! ### The transitions of ST -/

@[simp] theorem writeStep_st (k : Nat) (sl : Slot) (now : Time) (s : State) :
    (writeStep k sl now s).st = .awaitResponse := by
  rw [writeStep_eq]

/-- A poll step starts a cycle where its slot is active (R179). -/
theorem pollStep_st (sl : Slot) (now : Time) (s : State) :
    (pollStep sl now s).st = if 0 ≤ sl.zid ∧ sl.zid ≤ 255 then .awaitResponse else s.st := by
  rw [pollStep_eq]
  simp only [slotActive_iff]
  split <;> rfl

theorem tick_st_of_writePending (now : Time) {s : State} (hidle : s.st = .idle) (hw : WritePending s) :
    (tick now s).st = .awaitResponse := by
  obtain ⟨k, sl, hp, hk, -, -⟩ := exists_firstPending hw
  rw [tick_eq_writeStep now hidle hp hk, writeStep_st]

theorem tick_st_of_poll {now : Time} {s : State} (hN : s.slots.length ≤ s.cfg.nzMax) (hidle : s.st = .idle)
    (hw : ¬ WritePending s) (he : s.cfg.pollInterval.toNat ≤ (now - s.pollTs).toNat) {sl : Slot}
    (hsl : s.slots[(s.rr + 1) % s.slots.length]? = some sl) :
    (tick now s).st = if 0 ≤ sl.zid ∧ sl.zid ≤ 255 then .awaitResponse else .idle := by
  have hrr : nextRr s = (s.rr + 1) % s.slots.length := nextRr_eq hN (List.ne_nil_of_mem (List.mem_of_getElem? hsl))
  rw [tick_eq_pollStep hidle hw he (hrr ▸ hsl), pollStep_st, setRun_st, hidle]

theorem tick_st_of_not_idle (now : Time) {s : State} (hst : s.st ≠ .idle) :
    (tick now s).st = if s.cfg.rxTimeout.toNat ≤ (now - s.txTs).toNat then .idle else s.st := by
  rw [tick_of_not_idle now hst]
  split <;> rfl

@[simp] theorem frameComplete_st (s : State) : (frameComplete s).st = .idle := by
  obtain ⟨slots, trace, h⟩ := frameComplete_frame s
  rw [h]

/-- The next ST of a received byte (R182 to R187). -/
theorem execRxByte_st {b : Byte} {s t : State} (h : execRxByte b s = .next t) :
    t.st = match s.st with
      | .idle => .idle
      | .awaitResponse => if b = 0x10 then .receiving else .awaitResponse
      | .receiving => if s.rxcnt.toNat + 1 = 16 then .idle else .receiving := by
  rcases execRxByte_cases h with ⟨hst, rfl, hnoise⟩ | ⟨hst, rfl, rfl⟩ | ⟨hst, hcnt, rfl⟩ | ⟨hst, hcnt, rfl⟩
  · cases hs : t.st with
    | idle => rfl
    | awaitResponse => exact (if_neg (hnoise hs)).symm
    | receiving => exact absurd hs hst
  · simp only [hst, if_true]
  · have hmore : s.rxcnt.toNat + 1 ≠ 16 := by omega
    simp only [hst, if_neg hmore]
  · simp only [hst, hcnt, frameComplete_st, if_true]

/-- ST is the controller's: no other operation but RESET writes it (10_state.md R22). -/
theorem exec_st_eq {i : Instr} {s t : State} (h : exec i s = .next t) (hreset : i ≠ .reset) (htick : ∀ now, i ≠ .tick now)
    (hrx : ∀ b, i ≠ .rxByte b) (hdrive : ∀ now bytes, i ≠ .drive now bytes) (hresp : ∀ bytes, i ≠ .frameResp bytes) :
    t.st = s.st := by
  rcases exec_cases h with ⟨hi, -⟩ | ⟨now, hi, -⟩ | ⟨b, hi, -⟩ | ⟨k, vmode, fan, swing, target, -, hc⟩ |
    ⟨k, vmode, fan, swing, target, -, hc⟩ | ⟨k, e, -, -, rfl⟩ | ⟨now, bytes, u, hi, -⟩ | ⟨bytes, hi, -⟩ |
    ⟨-, -, -, -, -, r, rfl⟩
  · exact absurd hi hreset
  · exact absurd hi (htick now)
  · exact absurd hi (hrx b)
  · obtain ⟨sl, p, m, -, -, rfl⟩ := changeZone_eq_next hc
    rfl
  · obtain ⟨sl, p, m, -, -, -, rfl⟩ := execSeedZone_eq_next hc
    rfl
  · rfl
  · exact absurd hi (hdrive now bytes)
  · exact absurd hi (hresp bytes)
  · rfl

/-- Settles O48: TICK by its branch, RX_BYTE by ST, RESET to Idle, and every other operation leaves ST alone. -/
theorem controllerTransitions : Obligations.ControllerTransitions := by
  intro i s t hN hdrive hresp h
  cases i
  case reset =>
    simp only [exec, execReset] at h
    split at h
    · cases h
    · cases h
      rfl
  case tick now =>
    cases h
    dsimp only
    by_cases hidle : s.st = .idle
    · rw [if_pos hidle]
      refine ⟨tick_st_of_writePending now hidle, fun hw he sl hsl => ?_, fun hw he => ?_⟩
      · rw [tick_st_of_poll hN hidle hw he hsl]
        exact ⟨fun ha => if_pos ha, fun ha => if_neg ha⟩
      · rw [tick_eq_setRun hidle hw he]
        exact hidle
    · rw [if_neg hidle]
      exact tick_st_of_not_idle now hidle
  case rxByte b => exact execRxByte_st h
  case drive now bytes => exact absurd rfl (hdrive now bytes)
  case frameResp bytes => exact absurd rfl (hresp bytes)
  all_goals exact exec_st_eq h (by simp) (by simp) (by simp) (by simp) (by simp)

/-! ### The order of the round-robin steps -/

/-- A round-robin step lands on the slot after RR, and leaves RR there; without one RR keeps its value (R179). -/
theorem tick_rr (now : Time) {s : State} (hN : s.slots.length ≤ s.cfg.nzMax) :
    (tick now s).rr = (tickPollIndex now s).getD s.rr := by
  unfold tickPollIndex
  split
  · next hpoll =>
    obtain ⟨hidle, hp, hlen, he⟩ := hpoll
    have hne : s.slots ≠ [] := List.length_pos_iff.1 hlen
    have hsl := List.getElem?_eq_getElem (nextRr_lt hne)
    rw [tick_eq_pollStep hidle ((firstPending_eq_none_iff s).1 hp) ((elapsed_iff _ _ _).1 he) hsl, pollStep_rr]
    exact nextRr_eq hN hne
  · next hno =>
    rcases tick_roundRobin now hN with ⟨hrr, -⟩ | ⟨hidle, hw, he, hne, -⟩
    · exact hrr
    · exact absurd ⟨hidle, (firstPending_eq_none_iff s).2 hw, List.length_pos_iff.2 hne, (elapsed_iff _ _ _).2 he⟩ hno

theorem tickPollIndex_eq_some {now : Time} {s : State} {k : Nat} (h : tickPollIndex now s = some k) :
    k = (s.rr + 1) % s.slots.length := by
  unfold tickPollIndex at h
  split at h
  · exact (Option.some.inj h).symm
  · cases h

/-- Received bytes leave RR, the parameters and the number of slots alone. -/
theorem rxBytes_rr_cfg_length {bytes : List Byte} {s t : State} (h : rxBytes bytes s = .next t) :
    t.rr = s.rr ∧ t.cfg = s.cfg ∧ t.slots.length = s.slots.length := by
  have hlen := congrArg List.length (rxBytes_map_slots (f := fun _ => ()) (fun _ _ _ => rfl) h)
  obtain ⟨_, _, _, _, _, rfl⟩ := rxBytes_frame h
  exact ⟨rfl, rfl, by simpa using hlen⟩

/-- Every operation but RESET leaves RR at the slot that its round-robin step landed on, where it took one. -/
theorem exec_rr {i : Instr} {s t : State} (hN : s.slots.length ≤ s.cfg.nzMax) (hreset : i ≠ .reset)
    (h : exec i s = .next t) : t.rr = (pollIndex i s).getD s.rr := by
  cases i
  case reset => exact absurd rfl hreset
  case tick now =>
    cases h
    exact tick_rr now hN
  case drive now bytes =>
    obtain ⟨u, hu, ht⟩ := andThen_eq_next h
    obtain ⟨hrr, hcfg, hlen⟩ := rxBytes_rr_cfg_length hu
    cases ht
    simp only [pollIndex, hu]
    rw [← hrr]
    exact tick_rr now (by rw [hlen, hcfg]; exact hN)
  all_goals exact (exec_roundRobin_eq h (by simp) (by simp) (by simp)).1

/-- A round-robin step lands on the slot after RR (R179). -/
theorem pollIndex_eq_some {i : Instr} {s : State} {k : Nat} (h : pollIndex i s = some k) :
    k = (s.rr + 1) % s.slots.length := by
  cases i
  case tick now => exact tickPollIndex_eq_some h
  case drive now bytes =>
    simp only [pollIndex] at h
    split at h
    · next u hu =>
      obtain ⟨hrr, -, hlen⟩ := rxBytes_rr_cfg_length hu
      rw [← hrr, ← hlen]
      exact tickPollIndex_eq_some h
    · cases h
    · cases h
  all_goals cases h

/-- Settles O50: an operation without a round-robin step keeps RR, and one with it advances RR to where it landed, from where
the steps after it count on. -/
theorem roundRobinOrder : Obligations.RoundRobinOrder := by
  intro ops s j k hN hreset h
  induction ops generalizing s j with
  | nil => cases h
  | cons i is ih =>
    rw [pollOrder] at h
    cases ht : exec i s with
    | fault f => simp [ht] at h
    | refused r => simp [ht] at h
    | next t =>
      simp only [ht] at h
      have hrr := exec_rr hN (hreset i List.mem_cons_self) ht
      obtain ⟨hcfg, hzids⟩ := configurationNeverWritten i s t ht
      have hlen : t.slots.length = s.slots.length := by simpa using congrArg List.length hzids
      have hrest (j' : Nat) (hj' : (pollOrder is t)[j']? = some k) : k = (t.rr + 1 + j') % s.slots.length := by
        rw [← hlen]
        exact ih t j' (by rw [hlen, hcfg]; exact hN) (fun a ha => hreset a (List.mem_cons_of_mem i ha)) hj'
      cases hpoll : pollIndex i s with
      | none =>
        rw [hpoll] at h hrr
        rw [hrest j h, hrr, Option.getD_none]
      | some k' =>
        rw [hpoll] at h hrr
        cases j with
        | zero =>
          obtain rfl : k' = k := Option.some.inj h
          exact pollIndex_eq_some hpoll
        | succ j =>
          rw [hrest j h, hrr, Option.getD_some, pollIndex_eq_some hpoll, Nat.add_assoc, Nat.mod_add_mod]
          congr 1
          omega

end Sys2Proof.Proofs
end

section
/-! PROOFS. What any operation appends to the trace: at most one transmission (41_controller.md R198), and from a legal state no
UnknownZone (R190). -/

namespace Sys2Proof.Proofs

open Sys2Proof.Machine Sys2Proof.Safety Sys2Proof.Laws

/-! ### What an operation transmits -/

theorem txCount_transmission (f : List Byte) : txCount (transmission f) = f.length := by
  simp [txCount, transmission, List.filter_map, Function.comp_def]

/-- A tick transmits nothing, or one request of eight bytes (R198). -/
theorem tick_trace (now : Time) (s : State) :
    ∃ ev, (tick now s).trace = s.trace ++ ev ∧ (txCount ev = 0 ∨ txCount ev = 8) := by
  rcases tick_silent_or_sends now s with ⟨-, -, -, -, ev, htr, hev⟩ | ⟨f, -, -, htr, hlen, -⟩
  · exact ⟨ev, htr, .inl hev⟩
  · exact ⟨_, htr, .inr ((txCount_transmission f).trans hlen)⟩

/-- Settles O55: DRIVE transmits what its tick does, RESET nothing, and any other operation what
`sequenceAdvancesOnlyByTransmission` says. -/
theorem traceGrowsByBoundedTransmission : Obligations.TraceGrowsByBoundedTransmission := by
  intro i s t h
  by_cases hreset : i = .reset
  · subst hreset
    rcases exec_cases h with ⟨-, -, rfl⟩ | h
    · exact ⟨[], (List.append_nil _).symm, .inl rfl, nofun⟩
    · simp at h
  by_cases hdrive : ∃ now bytes, i = .drive now bytes
  · obtain ⟨now, bytes, rfl⟩ := hdrive
    obtain ⟨u, hu, ht⟩ := andThen_eq_next h
    obtain ⟨-, -, -, -, ev, htr, hev⟩ := rxBytes_silent hu
    obtain ⟨ev', htr', hev'⟩ := tick_trace now u
    cases ht
    refine ⟨ev ++ ev', ?_, ?_, fun _ => ⟨now, .inr ⟨bytes, rfl⟩⟩⟩
    · rw [← List.append_assoc, ← htr]
      exact htr'
    · rwa [txCount_append, hev, Nat.zero_add]
  · simp only [not_exists] at hdrive
    rcases sequenceAdvancesOnlyByTransmission i s t hreset hdrive h with
      ⟨-, -, -, -, ev, htr, hev⟩ | ⟨now, f, hi, -, -, htr, hlen, -⟩
    · exact ⟨ev, htr, .inl hev, by simp [hev]⟩
    · exact ⟨_, htr, .inr ((txCount_transmission f).trans hlen), fun _ => ⟨now, .inl hi⟩⟩

/-! ### UnknownZone -/

/-- From `s` to `t` the trace grows by events that are not `e`. -/
def GrowsWithout (e : Event) (s t : State) : Prop := ∃ ev, t.trace = s.trace ++ ev ∧ e ∉ ev

theorem GrowsWithout.of_eq {e : Event} {s t : State} (h : t.trace = s.trace) : GrowsWithout e s t :=
  ⟨[], by rw [h, List.append_nil], List.not_mem_nil⟩

theorem GrowsWithout.trans {e : Event} {s t u : State} (hst : GrowsWithout e s t) (htu : GrowsWithout e t u) :
    GrowsWithout e s u := by
  obtain ⟨ev, htr, hev⟩ := hst
  obtain ⟨ev', htr', hev'⟩ := htu
  exact ⟨ev ++ ev', by rw [htr', htr, List.append_assoc], by simp [hev, hev']⟩

theorem growsWithout_abandoned {e : Event} {code : Nat} (h : e ≠ .err code 0) (s : State) :
    GrowsWithout e s (abandoned s code) := ⟨_, rfl, by simpa using h⟩

/-- A transmission holds no error event (R173). -/
theorem err_not_mem_transmission (code detail : Nat) (f : List Byte) : Event.err code detail ∉ transmission f := by
  simp [transmission]

/-- A dispatched response raises field errors alone (41_controller.md R191). -/
theorem err_not_mem_dispatchEvents {code : Nat} (hcode : code ≠ 6) (detail : Nat) (c : Config) (k : Nat)
    (frame : List Byte) (sl : Slot) : Event.err code detail ∉ dispatchEvents c k frame sl := by
  simp only [dispatchEvents, List.mem_append, not_or]
  refine ⟨⟨?_, ?_⟩, ?_⟩ <;> split <;> simp [hcode]

/-- SEND raises no error. -/
theorem send_growsWithout_err (code detail : Nat) (sl : Slot) (write : Bit) (now : Time) (s : State) :
    GrowsWithout (.err code detail) s (send sl write now s) := by
  rw [send_eq]
  exact ⟨_, rfl, err_not_mem_transmission code detail _⟩

/-- The one error of a tick is ReceiveTimeout (R175). -/
theorem tick_growsWithout_err {code : Nat} (hcode : code ≠ 4) (detail : Nat) (now : Time) (s : State) :
    GrowsWithout (.err code detail) s (tick now s) := by
  rcases tick_cases now s with ⟨-, k, sl, -, -, ht⟩ | ⟨-, -, sl, -, -, ht⟩ | ⟨-, -, -, ht⟩ | ⟨-, -, ht⟩ | ⟨-, -, ht⟩
  · rw [ht]
    exact send_growsWithout_err code detail sl 1 now (setRun s)
  · simp only [ht, pollStep]
    split
    · exact send_growsWithout_err code detail sl 0 now { setRun s with rr := _, pollTs := _ }
    · exact .of_eq rfl
  · rw [ht]
    exact .of_eq rfl
  · rw [ht]
    exact growsWithout_abandoned (by simp [hcode]) (setRun s)
  · rw [ht]
    exact .of_eq rfl

/-- From a legal state a correlated frame has a slot: LAST_ZONE is the id of an active one (10_state.md R46). -/
theorem execRxByte_growsWithout_unknownZone {b : Byte} {s t : State} (hinv : Inv s) (h : execRxByte b s = .next t) :
    GrowsWithout (.err 5 0) s t := by
  rcases execRxByte_cases h with ⟨-, rfl, -⟩ | ⟨-, -, rfl⟩ | ⟨-, -, rfl⟩ | ⟨hst, hcnt, -⟩
  · exact .of_eq rfl
  · exact .of_eq rfl
  · exact .of_eq rfl
  · rcases execRxByte_complete_cases b hst (BitVec.eq_of_toNat_eq hcnt) hinv.buffer with
      ⟨-, hf⟩ | ⟨-, -, hf⟩ | ⟨-, -, hzone, -⟩ | ⟨-, -, k, sl, -, -, hf⟩
    · obtain rfl := Host.Outcome.next.inj (h.symm.trans hf)
      exact growsWithout_abandoned (by simp) s
    · obtain rfl := Host.Outcome.next.inj (h.symm.trans hf)
      exact growsWithout_abandoned (by simp) s
    · exact absurd (hinv.lastZoneActive (by simp [hst])) hzone
    · obtain rfl := Host.Outcome.next.inj (h.symm.trans hf)
      exact ⟨_, rfl, err_not_mem_dispatchEvents (by decide) 0 s.cfg k _ sl⟩

theorem rxBytes_growsWithout_unknownZone {bytes : List Byte} {s t : State} (hinv : Inv s) (h : rxBytes bytes s = .next t) :
    GrowsWithout (.err 5 0) s t := by
  induction bytes generalizing s with
  | nil =>
    cases h
    exact .of_eq rfl
  | cons b bytes ih =>
    obtain ⟨u, hu, ht⟩ := andThen_eq_next h
    exact (execRxByte_growsWithout_unknownZone hinv hu).trans (ih (execRxByte_keeps_inv hinv hu) ht)

/-- Settles O60: UnknownZone is raised for a received byte only, and there LAST_ZONE has its slot. -/
theorem unknownZoneUnreachable : Obligations.UnknownZoneUnreachable := by
  intro i s t hinv h
  show GrowsWithout (.err 5 0) s t
  rcases exec_cases h with ⟨-, -, rfl⟩ | ⟨now, -, rfl⟩ | ⟨b, -, hb⟩ | ⟨k, vmode, fan, swing, target, -, hc⟩ |
    ⟨k, vmode, fan, swing, target, -, hc⟩ | ⟨k, e, rfl, -, -⟩ | ⟨now, bytes, u, -, hb, rfl⟩ | ⟨bytes, -, hb⟩ |
    ⟨-, -, -, -, -, r, rfl⟩
  · exact .of_eq rfl
  · exact tick_growsWithout_err (by decide) 0 now s
  · exact execRxByte_growsWithout_unknownZone hinv hb
  · obtain ⟨sl, p, m, -, -, rfl⟩ := changeZone_eq_next hc
    exact .of_eq rfl
  · obtain ⟨sl, p, m, -, -, -, rfl⟩ := execSeedZone_eq_next hc
    exact .of_eq rfl
  · obtain ⟨sl, -, rfl⟩ := execGetZone_eq_next h
    exact ⟨_, rfl, by simp⟩
  · exact (rxBytes_growsWithout_unknownZone hinv hb).trans (tick_growsWithout_err (by decide) 0 now u)
  · exact rxBytes_growsWithout_unknownZone hinv hb
  · exact .of_eq rfl

end Sys2Proof.Proofs
end

section
/-! PROOFS. The host operations SET_ZONE, SEED_ZONE and GET_ZONE (42_host_interface.md R221 to R223). -/

namespace Sys2Proof.Proofs

open Sys2Proof.Machine Sys2Proof.Safety Sys2Proof.Laws

/-! ### The slot and the mode of a host operation -/

theorem withSlot_of_length_le {k : Byte} {s : State} (h : s.slots.length ≤ k.toNat) (f : Slot → Answer) :
    withSlot k s f = .refused .slotOutOfRange := by
  rw [withSlot, List.getElem?_eq_none h]

theorem withSlot_of_getElem? {k : Byte} {s : State} {sl : Slot} (hk : s.slots[k.toNat]? = some sl) (f : Slot → Answer) :
    withSlot k s f = f sl := by
  rw [withSlot, hk]

theorem encMode_eq_none {vmode : BitVec 3} (h : 5 < vmode.toNat) (prev : BitVec 3) : encMode vmode prev = none := by
  rw [encMode_eq, if_pos h]

theorem encMode_eq_some {vmode : BitVec 3} (h : ¬ 5 < vmode.toNat) (prev : BitVec 3) :
    encMode vmode prev = some (if vmode = 5 then 0 else 1, if vmode = 5 then prev else vmode) := by
  rw [encMode_eq, if_neg h]

/-! ### SET_ZONE and REQUEST_CHANGE -/

theorem changeZone_hostVmode {k : Byte} {vmode : BitVec 3} {s : State} {sl : Slot} (hk : s.slots[k.toNat]? = some sl)
    (hm : 5 < vmode.toNat) (fan : BitVec 2) (swing : Bit) (target : Byte) :
    changeZone k vmode fan swing target s = .refused .hostVmode := by
  rw [changeZone, withSlot_of_getElem? hk, encMode_eq_none hm]

/-- Settles O43: both spellings are the one request, which refuses a missing slot and then a vmode code without a meaning. -/
theorem setZoneResult : Obligations.SetZoneResult := by
  intro s k vmode fan swing target i hi
  have hexec : exec i s = changeZone k vmode fan swing target s := by
    rcases hi with rfl | rfl <;> rfl
  rw [hexec]
  constructor
  · intro hk
    exact ⟨_, withSlot_of_length_le hk _, fun _ => rfl⟩
  · intro sl hk
    split
    · next hm => exact changeZone_hostVmode hk hm fan swing target
    · next hm => exact changeZone_eq_setSlot hk (encMode_eq_some hm sl.mode) fan swing target

/-! ### SEED_ZONE -/

/-- SEED_ZONE on a slot of the registry looks at the vmode code, then at RUN, and then writes the slot. -/
theorem execSeedZone_of_getElem? {k : Byte} {s : State} {sl : Slot} (hk : s.slots[k.toNat]? = some sl) (vmode : BitVec 3)
    (fan : BitVec 2) (swing : Bit) (target : Byte) :
    execSeedZone k vmode fan swing target s =
      if 5 < vmode.toNat then .refused .hostVmode
      else if s.run = true then .refused .seedAfterTick
      else .next (setSlot k.toNat (commandSlot (if vmode = 5 then 0 else 1) (if vmode = 5 then sl.mode else vmode)
        fan swing target sl) s) := by
  rw [execSeedZone, withSlot_of_getElem? hk]
  by_cases hm : 5 < vmode.toNat
  · rw [encMode_eq_none hm, if_pos hm]
  · rw [encMode_eq_some hm, if_neg hm]

/-- A ground of refusal that holds is named, unless another one holds too. -/
theorem seedZone_refused {s : State} {k : Byte} {vmode : BitVec 3}
    (h : s.slots.length ≤ k.toNat ∨ 5 < vmode.toNat ∨ s.run = true) (fan : BitVec 2) (swing : Bit) (target : Byte) :
    ∃ r, execSeedZone k vmode fan swing target s = .refused r ∧
      (vmode.toNat ≤ 5 → s.run = false → r = .slotOutOfRange) ∧
      (k.toNat < s.slots.length → s.run = false → r = .hostVmode) ∧
      (k.toNat < s.slots.length → vmode.toNat ≤ 5 → r = .seedAfterTick) := by
  by_cases hk : s.slots.length ≤ k.toNat
  · exact ⟨_, withSlot_of_length_le hk _, fun _ _ => rfl, fun hlt => absurd hk (Nat.not_le.2 hlt),
      fun hlt => absurd hk (Nat.not_le.2 hlt)⟩
  · rw [execSeedZone_of_getElem? (List.getElem?_eq_getElem (Nat.not_le.1 hk))]
    by_cases hm : 5 < vmode.toNat
    · exact ⟨_, if_pos hm, fun hle => absurd hm (Nat.not_lt.2 hle), fun _ _ => rfl,
        fun _ hle => absurd hm (Nat.not_lt.2 hle)⟩
    · have hrun : s.run = true := (h.resolve_left hk).resolve_left hm
      exact ⟨_, by rw [if_neg hm, if_pos hrun], by simp [hrun], by simp [hrun], fun _ _ => rfl⟩

/-- Settles O44: `seedZone_refused`, and the write of SEED_ZONE where no ground holds. -/
theorem seedZoneResult : Obligations.SeedZoneResult := by
  intro s k vmode fan swing target
  constructor
  · intro h
    exact seedZone_refused h fan swing target
  · intro sl hk hm hrun
    have hseed := execSeedZone_of_getElem? hk vmode fan swing target
    rw [if_neg (Nat.not_lt.2 hm), if_neg (by simp [hrun])] at hseed
    exact hseed

/-! ### GET_ZONE -/

/-- Settles O45: GET_ZONE emits the registers of its slot, where there is one. -/
theorem getZoneResult : Obligations.GetZoneResult := by
  intro s k
  constructor
  · intro hk
    exact withSlot_of_length_le hk _
  · intro sl hk
    exact withSlot_of_getElem? hk _

end Sys2Proof.Proofs
end

section
/-! PROOFS. The exceptions (60_exceptions.md): a step with nothing presented waits, and one under a refused configuration or at a
bad record is refused (R254, R270); bytes that complete the outstanding frame come before its deadline is judged (R259). -/

namespace Sys2Proof.Proofs

open Sys2Proof.Machine Sys2Proof.Safety Sys2Proof.Laws

/-! ### Waiting and refused steps -/

theorem step_nothing {s : State} (hinput : s.input = []) : step s = .next s := by
  simp [step, fetch, hinput]

/-- A refused configuration is named before the record is looked at (notes/assumptions/9.md). -/
theorem step_configuration {s : State} {r : Record} {rest : List Record} (hinput : s.input = r :: rest)
    (hconfig : configRefused s = true) : step s = .refused .configuration := by
  simp [step, fetch, hinput, hconfig]

/-- Settles O2: what the input presents decides, then the configuration, then the record (`step_badRecord`). -/
theorem stepWaitsOrRefuses : Obligations.StepWaitsOrRefuses := by
  intro s
  refine ⟨step_nothing, fun r rest hinput => ⟨step_configuration hinput, fun e hconfig hdecode => ?_⟩⟩
  exact step_badRecord hinput hconfig hdecode

/-! ### Received bytes raise no ReceiveTimeout -/

/-- The errors of FRAME_COMPLETE are the frame's own, and its deadline is not among them (41_controller.md R187, R191). -/
theorem frameComplete_growsWithout_timeout (s : State) : GrowsWithout (.err 4 0) s (frameComplete s) := by
  rcases frameComplete_cases s with ⟨-, hf⟩ | ⟨-, -, hf⟩ | ⟨-, -, -, hf⟩ | ⟨-, -, k, sl, -, -, hf⟩
  · rw [hf]
    exact growsWithout_abandoned (by simp) s
  · rw [hf]
    exact growsWithout_abandoned (by simp) s
  · rw [hf]
    exact growsWithout_abandoned (by simp) s
  · rw [hf]
    exact ⟨_, rfl, err_not_mem_dispatchEvents (by decide) 0 s.cfg k _ sl⟩

theorem execRxByte_growsWithout_timeout {b : Byte} {s t : State} (h : execRxByte b s = .next t) :
    GrowsWithout (.err 4 0) s t := by
  rcases execRxByte_cases h with ⟨-, rfl, -⟩ | ⟨-, -, rfl⟩ | ⟨-, -, rfl⟩ | ⟨-, -, rfl⟩
  · exact .of_eq rfl
  · exact .of_eq rfl
  · exact .of_eq rfl
  · exact frameComplete_growsWithout_timeout { s with rxbuf := bufPut s.rxbuf 15 b, rxcnt := 16 }

theorem rxBytes_growsWithout_timeout {bytes : List Byte} {s t : State} (h : rxBytes bytes s = .next t) :
    GrowsWithout (.err 4 0) s t := by
  induction bytes generalizing s with
  | nil =>
    cases h
    exact .of_eq rfl
  | cons b bytes ih =>
    obtain ⟨u, hu, ht⟩ := andThen_eq_next h
    exact (execRxByte_growsWithout_timeout hu).trans (ih ht)

/-! ### A tick in Idle raises no error -/

/-- IDLE_TICK sends or does nothing (41_controller.md R176). -/
theorem idleTick_growsWithout_err (code detail : Nat) (now : Time) (s : State) :
    GrowsWithout (.err code detail) s (idleTick now s) := by
  unfold idleTick
  split
  · next k sl _ => exact send_growsWithout_err code detail sl 1 now s
  · split
    · next sl _ =>
      unfold pollStep
      dsimp only
      split
      · exact send_growsWithout_err code detail sl 0 now { s with rr := nextRr s, pollTs := now }
      · exact .of_eq rfl
    · exact .of_eq rfl

/-- The deadline is judged outside Idle alone (41_controller.md R175, R181). -/
theorem tick_growsWithout_err_of_idle (code detail : Nat) (now : Time) {s : State} (hidle : s.st = .idle) :
    GrowsWithout (.err code detail) s (tick now s) := by
  rw [tick_of_idle now hidle]
  exact idleTick_growsWithout_err code detail now (setRun s)

/-! ### Bytes that reach the end of the frame -/

/-- Bytes in Idle are discarded (41_controller.md R183). -/
theorem rxBytes_of_idle (bytes : List Byte) {s : State} (hidle : s.st = .idle) : rxBytes bytes s = .next s := by
  induction bytes with
  | nil => rfl
  | cons b bytes ih =>
    have hbyte : execRxByte b s = .next s := noiseBytesDiscarded s b (.inl hidle)
    rw [rxBytes, hbyte, andThen_next, ih]

/-- Bytes that reach offset 15 end the frame cycle, whatever frame they complete (41_controller.md R186, R187). -/
theorem rxBytes_end_cycle (bytes : List Byte) {s : State} (hst : s.st = .receiving) (hcnt : s.rxcnt.toNat ≤ 15)
    (hlen : 16 ≤ s.rxcnt.toNat + bytes.length) : ∃ u, rxBytes bytes s = .next u ∧ u.st = .idle := by
  induction bytes generalizing s with
  | nil =>
    rw [List.length_nil] at hlen
    omega
  | cons b bytes ih =>
    rw [List.length_cons] at hlen
    rw [rxBytes]
    rcases Nat.lt_or_eq_of_le hcnt with hlt | hlast
    · have hnext : (s.rxcnt + 1).toNat = s.rxcnt.toNat + 1 := by
        rw [BitVec.toNat_add, Nat.mod_eq_of_lt (by simp; omega)]
        rfl
      rw [execRxByte_append b hst hlt, andThen_next]
      exact ih hst (by simp only [hnext]; omega) (by simp only [hnext]; omega)
    · rw [execRxByte_complete b hst hlast, andThen_next]
      exact ⟨_, rxBytes_of_idle bytes (frameComplete_st _), frameComplete_st _⟩

/-! ### DRIVE -/

/-- A DRIVE whose bytes leave ST in Idle raises no ReceiveTimeout: its tick finds nothing outstanding (R259). -/
theorem execDrive_growsWithout_timeout {now : Time} {bytes : List Byte} {s u : State}
    (hbytes : rxBytes (bytes.take s.cfg.rxMax) s = .next u) (hidle : u.st = .idle) :
    ∃ t, execDrive now bytes s = .next t ∧ GrowsWithout (.err 4 0) s t := by
  refine ⟨{ tick now u with held := bytes.drop s.cfg.rxMax }, ?_, ?_⟩
  · rw [execDrive, hbytes, andThen_next]
  · exact (rxBytes_growsWithout_timeout hbytes).trans (tick_growsWithout_err_of_idle 4 0 now hidle)

/-- Settles O40: DRIVE performs its bytes, then its tick, and in Receiving the byte at offset 15 ends the cycle. -/
theorem frameCompletedBeforeDeadlineKept : Obligations.FrameCompletedBeforeDeadlineKept := by
  constructor
  · intro s u now bytes _ hbytes hidle
    rw [execAll_rxByte] at hbytes
    obtain ⟨t, ht, ev, htrace, hev⟩ := execDrive_growsWithout_timeout (now := now) hbytes hidle
    exact ⟨t, ev, ht, htrace, hev⟩
  · intro s bytes hst hcnt hlen
    rw [execAll_rxByte]
    exact rxBytes_end_cycle (bytes.take s.cfg.rxMax) hst hcnt hlen

end Sys2Proof.Proofs
end

section
/-! PROOFS. RESET (70_reset_and_hazards.md R290). -/

namespace Sys2Proof.Proofs

open Sys2Proof.Machine Sys2Proof.Safety Sys2Proof.Laws

/-- RR's reset value fits its width, with slots and without (10_state.md R29). -/
theorem holdRr_resetValue {c : Config} {n : Nat} (h : n ≤ c.nzMax) :
    holdRr c (if 1 ≤ n then n - 1 else 0) = if 1 ≤ n then n - 1 else 0 := by
  split
  · exact holdRr_last h
  · exact holdRr_zero c

/-- Settles O47: RESET writes each register's reset value, and RR holds its own because N is at most NZ_MAX. -/
theorem resetResult : Obligations.ResetResult := by
  intro s hN
  have hexec : exec .reset s = if configRefused s = true then .refused .configuration else .next (resetRegs s) := rfl
  rw [hexec, resetRegs, holdRr_resetValue hN]
  rfl

end Sys2Proof.Proofs
end
